-- ==== Sys2Proof/Word.lean ====
section
/-! DEFINITION. The word, byte and level types of spec/00_scope.md rules R10 to R12. -/

namespace Sys2Proof

/-- The 32-bit word of the Control Register (rules R9, R20). Bit 0 is the least significant (R12). -/
abbrev Word := BitVec 32

/-- One unit of the byte streams (rule R11). -/
abbrev Byte := BitVec 8

/-- A level is one bit: `true` is 1 and `false` is 0 (rule R12). -/
abbrev Level := Bool

/-- The index of a bit of the Control Register, 0..31 (rule R9). -/
abbrev BitIdx := Fin 32

/-- A physical address (rule R9). No rule gives its width. -/
abbrev PAddr := Nat

/-- `v[i]`, bit `i` of `v` (rule R12). -/
def bitAt (v : Word) (i : BitIdx) : Level := v.getLsbD i.val

/-- `1 << b` within 32 bits (rule R12). -/
def oneAt (b : BitIdx) : Word := 1#32 <<< b.val

end Sys2Proof
end

