-- ==== Sys2Proof/Syntax.lean ====
section
/-! DEFINITION. The commands: spec/30_encoding.md rules R75 and R76. -/

namespace Sys2Proof

/-- The byte-encoded commands, one constructor per row of spec/opcode_table.json (rule R75). -/
inductive Instr where
  /-- WRITE c,m,d (`'0'`..`'7'`): requested clock, mode and data levels (R71, R130). -/
  | write (c m d : Level)
  /-- READ (`'R'`, R150). -/
  | read
  /-- QUIT (`'Q'`, R110). -/
  | quit
  /-- BLINK_UPPER (`'B'`, R112). -/
  | blinkUpper
  /-- BLINK_LOWER (`'b'`, R113). -/
  | blinkLower
  /-- RESET_R (`'r'`, R114). -/
  | resetR
  /-- RESET_R1 (`'r'+1`, R115). -/
  | resetR1
  /-- RESET_R2 (`'r'+2`, R116). -/
  | resetR2
  /-- RESET_R3 (`'r'+3`, R117). -/
  | resetR3
  deriving DecidableEq, Repr

/-- What the input port delivers: a byte, or end-of-stream (rules R11, R40, R73). -/
inductive InUnit where
  | byte (b : Byte)
  | eos
  deriving DecidableEq, Repr

/-- The decoded command type `Cmd` of rule R76. INVALID and EOS have no row in the opcode table
(R73, R78), so they stand beside `Instr`. -/
inductive Cmd where
  | instr (i : Instr)
  /-- A byte outside the opcode map (R78), carried into its diagnostic event (R118). -/
  | invalid (b : Byte)
  /-- The end-of-stream unit (R73). -/
  | eos
  deriving DecidableEq, Repr

end Sys2Proof
end

