-- ==== Sys2Proof/WellFormed.lean ====
section
/-! DEFINITION. Which syntax an encoding exists for. -/

namespace Sys2Proof

/-- Rule R78: the byte is in none of the rows of the opcode map. The six ranges are the rule's list. -/
def isInvalidByte (b : Byte) : Bool :=
  b.toNat ≤ 0x2F || (0x38 ≤ b.toNat && b.toNat ≤ 0x41) || (0x43 ≤ b.toNat && b.toNat ≤ 0x50)
    || (0x53 ≤ b.toNat && b.toNat ≤ 0x61) || (0x63 ≤ b.toNat && b.toNat ≤ 0x71) || 0x76 ≤ b.toNat

/-- Every operand of WRITE is one bit and every value of it is encodable (R71, R74); no other
instruction has an operand. So every `Instr` is well-formed. -/
def Instr.wf : Instr → Bool
  | .write _ _ _ => true
  | .read => true
  | .quit => true
  | .blinkUpper => true
  | .blinkLower => true
  | .resetR => true
  | .resetR1 => true
  | .resetR2 => true
  | .resetR3 => true

/-- `INVALID(b)` is well-formed only for a byte outside the opcode map (R76, R78). -/
def Cmd.wf : Cmd → Bool
  | .instr i => i.wf
  | .invalid b => isInvalidByte b
  | .eos => true

end Sys2Proof
end

