-- ==== Sys2Proof/Decode.lean ====
section
/-! DEFINITION. The decoder and the encoder: spec/30_encoding.md rules R70 to R79. Decoding is the
same function in every phase (R82). -/

namespace Sys2Proof

/-- `decode` of rule R76 on a byte: total, in the rule's own order. -/
def decodeByte (u : Byte) : Cmd :=
  if u &&& 0xF8#8 = 0x30#8 then .instr (.write (u.getLsbD 2) (u.getLsbD 1) (u.getLsbD 0))
  else if u = 0x52#8 then .instr .read
  else if u = 0x51#8 then .instr .quit
  else if u = 0x42#8 then .instr .blinkUpper
  else if u = 0x62#8 then .instr .blinkLower
  else if u = 0x72#8 then .instr .resetR
  else if u = 0x73#8 then .instr .resetR1
  else if u = 0x74#8 then .instr .resetR2
  else if u = 0x75#8 then .instr .resetR3
  else .invalid u

/-- `decode` of rule R76 on an input unit. -/
def decode : InUnit → Cmd
  | .byte u => decodeByte u
  | .eos => .eos

/-- The byte of an instruction, from the opcode map (rules R71, R75, R83). -/
def encode : Instr → Byte
  | .write c m d =>
    0x30#8 ||| (BitVec.ofBool c).setWidth 8 <<< 2 ||| (BitVec.ofBool m).setWidth 8 <<< 1
      ||| (BitVec.ofBool d).setWidth 8
  | .read => 0x52#8
  | .quit => 0x51#8
  | .blinkUpper => 0x42#8
  | .blinkLower => 0x62#8
  | .resetR => 0x72#8
  | .resetR1 => 0x73#8
  | .resetR2 => 0x74#8
  | .resetR3 => 0x75#8

/-- The input unit that decodes to a command. -/
def encodeCmd : Cmd → InUnit
  | .instr i => .byte (encode i)
  | .invalid b => .byte b
  | .eos => .eos

/-- A program as the units on the input port (rule R83). -/
def encodeProgram (p : List Cmd) : List InUnit := p.map encodeCmd

/-- The commands of a unit stream. Every command is one unit long and decoded alone (R70, R82). -/
def decodeStream (us : List InUnit) : List Cmd := us.map decode

/-- One row of the opcode map: `match`, `mask` and the command's constructor shape (R75). -/
structure OpcodeRow where
  pattern : Byte
  mask : Byte
  mnemonic : String
  deriving DecidableEq, Repr

/-- The opcode map of rule R75, in the order of spec/opcode_table.json. -/
def opcodeRows : List OpcodeRow :=
  [⟨0x30#8, 0xF8#8, "WRITE"⟩, ⟨0x52#8, 0xFF#8, "READ"⟩, ⟨0x51#8, 0xFF#8, "QUIT"⟩,
   ⟨0x42#8, 0xFF#8, "BLINK_UPPER"⟩, ⟨0x62#8, 0xFF#8, "BLINK_LOWER"⟩, ⟨0x72#8, 0xFF#8, "RESET_R"⟩,
   ⟨0x73#8, 0xFF#8, "RESET_R1"⟩, ⟨0x74#8, 0xFF#8, "RESET_R2"⟩, ⟨0x75#8, 0xFF#8, "RESET_R3"⟩]

/-- The byte fits the row's fixed bits. -/
def OpcodeRow.fits (r : OpcodeRow) (b : Byte) : Bool := b &&& r.mask == r.pattern

/-- The mnemonic of an instruction's row (R75). -/
def Instr.mnemonic : Instr → String
  | .write _ _ _ => "WRITE"
  | .read => "READ"
  | .quit => "QUIT"
  | .blinkUpper => "BLINK_UPPER"
  | .blinkLower => "BLINK_LOWER"
  | .resetR => "RESET_R"
  | .resetR1 => "RESET_R1"
  | .resetR2 => "RESET_R2"
  | .resetR3 => "RESET_R3"

/-- The first byte of a word of `nbits` bits, the bits above being 0. -/
def tableByte (nbits w : Nat) : Byte := BitVec.ofNat 8 (w % 2 ^ nbits)

/-- The instruction the decoder reads from a row of the opcode table with the bits `w`. Commands
are one byte, so only the first byte counts (R70). -/
def decodeTableWord (nbits w : Nat) : Option Instr :=
  match decodeByte (tableByte nbits w) with
  | .instr i => some i
  | .invalid _ => none
  | .eos => none

end Sys2Proof
end

