-- ==== Sys2Proof/Config.lean ====
section
/-! DEFINITION. What the source leaves open: the parameters of spec/00_scope.md rule R9 and the free
values of spec/93_implementation_defined.md. Each is an opaque constant without a body, so a theorem
holds for every value of it. -/

namespace Sys2Proof

/-- `MD_ORDER` (rules R9, R136): the order of the mode and data writes within one call. -/
inductive MdOrder where
  | modeFirst
  | dataFirst
  deriving DecidableEq, Repr, Inhabited

/-- What the world outside the block does before one block step: the environment's move, the host's
moves and the answers of the Register Access Layer (rules R5, R57, R101, R165, R167, R180). -/
structure Turn where
  /-- The word the environment proposes. Only its bits other than the four software-driven ones are
  taken (R26, R57). -/
  env : Word
  /-- The unit the host offers on the input port, if any (R40, R101). -/
  offer : Option InUnit
  /-- The host terminates the block from outside (R180). -/
  kill : Bool
  /-- The answer of `acquire()`, when the block asks: `true` is OK (R44, R165). -/
  acquireOk : Bool
  /-- Whether a failure-path `release()` reports UNMAP_WITHOUT_MAP (R167). -/
  unmapReport : Bool
  deriving DecidableEq, Repr, Inhabited

namespace Config

/-- The six pairwise distinct bit positions (rule R9, D2), as the places of 0..5 under a free
permutation of 0..31: every choice of six distinct indices is such a permutation's. -/
opaque fieldPlace : Equiv.Perm BitIdx

/-- `B_ENABLE` (R9). -/
def bEnable : BitIdx := fieldPlace 0
/-- `B_CLOCK` (R9). -/
def bClock : BitIdx := fieldPlace 1
/-- `B_MODE` (R9). -/
def bMode : BitIdx := fieldPlace 2
/-- `B_DATA_IN` (R9). -/
def bDataIn : BitIdx := fieldPlace 3
/-- `B_DATA_OUT` (R9). -/
def bDataOut : BitIdx := fieldPlace 4
/-- `B_CLOCK_ACK` (R9). -/
def bClockAck : BitIdx := fieldPlace 5

/-- `ENABLE_ON` (R9, R23), taken as an argument as R9 allows (U5). -/
opaque enableOn : Level
/-- `ACK_ASSERTED` (R9, R23), taken as an argument as R9 allows (U5). -/
opaque ackAsserted : Level
/-- `MD_ORDER` (R9, R136, U6). -/
opaque mdOrder : MdOrder

/-- A quarter of `REG_PADDR`. -/
opaque regPaddrQuarter : Nat
/-- `REG_PADDR` (R9, D1, U4): a multiple of 4 (R60). -/
def regPaddr : PAddr := 4 * regPaddrQuarter

/-- The two numeric exit statuses, as the places of 0 and 1 under a free permutation, so that they
differ (R9, R45, U7). -/
opaque exitPlace : Equiv.Perm Int
/-- `EXIT_OK` (R9, R45). -/
def exitOk : Int := exitPlace 0
/-- `EXIT_FAIL` (R9, R45). -/
def exitFail : Int := exitPlace 1

/-- The Control Register's word at reset: a draw (R27, D24, U1). -/
opaque initialReg : Word
/-- The free turns of the outside world, by the index `State.tick` (R57, U8 to U14, U16, U18). -/
opaque turn : Nat → Turn

end Config

end Sys2Proof
end

