-- ==== Sys2Proof/Machine/State.lean ====
section
/-! DEFINITION. The state: spec/10_state.md rules R20 to R47, with the outside world's part of it.
Plain data throughout. -/

namespace Sys2Proof.Machine

/-- A line, or the ENABLE bit, as a target of a read-modify-write (rule R138). -/
inductive Line where
  | mode
  | data
  | clock
  | enable
  deriving DecidableEq, Repr

/-- The micro-operations of rule R138. -/
inductive MicroOp where
  /-- First half of a read-modify-write: read the register into `held`. -/
  | rd (line : Line) (l : Level)
  /-- Second half: write the held word back with the line's bit at `l`. -/
  | wr (line : Line) (l : Level)
  /-- One read of the poll; it stays until CLOCK_ACK reads `e` (R134). -/
  | poll (e : Level)
  /-- Clear `first` (R135, R139). -/
  | fin
  /-- READ's register read (R151). -/
  | sample
  /-- READ's output byte (R151). -/
  | emit
  /-- The diagnostic event of an invalid byte (R118). -/
  | diagu (b : Byte)
  deriving DecidableEq, Repr

/-- The exit status of a session that ends by itself (rule R35). -/
inductive Status where
  | success
  | failure
  deriving DecidableEq, Repr

/-- The session phase (rule R35). -/
inductive Phase where
  | map
  | start
  | fetch
  | exec (cmd : Cmd)
  | stop
  | release (st : Status)
  | exited (st : Status)
  deriving DecidableEq, Repr

/-- A diagnostic event (rule R171). Its text is not specified. -/
inductive DiagEvent where
  | unknownCmd (b : Byte)
  | mapFail
  | unmapWithoutMap
  deriving DecidableEq, Repr

/-- A register event (rule R39). -/
inductive RegEvent where
  | rd (v : Word)
  | wr (v : Word)
  deriving DecidableEq, Repr

/-- A mapping event (rules R44, R165). The model's own history, so that "released exactly once"
(R38) can be said. -/
inductive MapEvent where
  | acquired
  | acquireFailed
  | released
  deriving DecidableEq, Repr

/-- What MAP and RELEASE still have to do, one block step each (rules R4, R166). The model's own. -/
inductive LifeOp where
  /-- Report MAP_FAIL and go to RELEASE(FAILURE) (R164, R166). -/
  | reportMapFail
  /-- Report UNMAP_WITHOUT_MAP (R167). -/
  | reportUnmap
  /-- The final exit (R4, R164). -/
  | exit (st : Status)
  deriving DecidableEq, Repr

/-- The whole state. -/
structure State where
  /-- Session phase (R35). -/
  phase : Phase
  /-- Driver State, "never written yet" (R30). -/
  first : Level
  /-- Driver State, last-driven clock level (R30). -/
  lastClk : Option Level
  /-- Driver State, last-driven mode level (R30). -/
  lastMode : Option Level
  /-- Driver State, last-driven data level (R30). -/
  lastData : Option Level
  /-- Remaining micro-operations (R36). -/
  todo : List MicroOp
  /-- The word read by the first half of a read-modify-write, or by READ (R36, R138). -/
  held : Option Word
  /-- The register mapping is held (R38). -/
  mapped : Level
  /-- Input units consumed so far (R37). -/
  pos : Nat
  /-- Response stream history (R39). -/
  out : List Byte
  /-- Diagnostic history (R39). -/
  diag : List DiagEvent
  /-- Register event history (R39). -/
  regLog : List RegEvent
  /-- Pending lifecycle operations: the model's own (R4). -/
  life : List LifeOp
  /-- Mapping event history: the model's own (R38). -/
  mapLog : List MapEvent
  /-- The host has terminated the block from outside (R180). -/
  killed : Level
  /-- The Control Register, `Env.reg`: the environment's (R20, R46). -/
  reg : Word
  /-- Units the host has offered and the block has not fetched: the host's (R40). -/
  input : List InUnit
  /-- The outside world's settled turns: the model's own (R57). -/
  turns : List Turn
  /-- Index of the next free turn: the model's own. -/
  tick : Nat
  deriving DecidableEq, Repr

/-- Why a step has no next state. Only `sessionOver` and `terminated` happen on a run from reset. -/
inductive Fault where
  /-- Raised by `RegRead`/`RegWrite` while `mapped = 0` (R52, R53, 93 U22). Safe: the spec's own
  fault, which no reachable state raises. -/
  | unmappedAccess
  /-- Raised by a register transaction at another address than `REG_PADDR` (R50, R63). Safe: no
  rule makes one. -/
  | noSuchAddress
  /-- Raised by WR or EMIT when `held` has no value (R36). Safe: unreachable, and the spec gives no
  word to use. -/
  | noHeldWord
  /-- Raised by a meaning called in a phase where its command is neither being dispatched nor
  running (R100 "requires s.phase == FETCH"; R138). Safe: `step` never does it. -/
  | wrongPhase
  /-- Raised by `step` in EXITED(st): "The block takes no further step" (R168). Safe: the end of the
  run. -/
  | sessionOver (st : Status)
  /-- Raised by `step` after an external termination: "After termination the block takes no further
  step" (R180). Safe: the end of the run. -/
  | terminated
  deriving DecidableEq, Repr

/-- Why an instruction has no meaning. No arm of `exec` raises it. -/
inductive Refusal where
  /-- Raised by an arm of `exec` for an instruction without a meaning. Safe: it stops. -/
  | notModelled (mnemonic : String)
  deriving DecidableEq, Repr

/-- The three outcomes of a step of this machine. -/
abbrev Result := Host.Outcome State Fault Refusal

namespace State

/-- The machine right after reset (rules R47, R190). The register's word is a draw (R27). -/
def reset : State where
  phase := .map
  first := true
  lastClk := none
  lastMode := none
  lastData := none
  todo := []
  held := none
  mapped := false
  pos := 0
  out := []
  diag := []
  regLog := []
  life := []
  mapLog := []
  killed := false
  reg := Config.initialReg
  input := []
  turns := []
  tick := 0

/-! ### Updates, one name each (rule R13, `s.f <- v`) -/

/-- `s.phase <- p`. -/
def setPhase (s : State) (p : Phase) : State := { s with phase := p }
/-- `s.first <- l`. -/
def setFirst (s : State) (l : Level) : State := { s with first := l }
/-- `s.lastClk <- l`. -/
def setLastClk (s : State) (l : Level) : State := { s with lastClk := some l }
/-- `s.lastMode <- l`. -/
def setLastMode (s : State) (l : Level) : State := { s with lastMode := some l }
/-- `s.lastData <- l`. -/
def setLastData (s : State) (l : Level) : State := { s with lastData := some l }
/-- `s.todo <- ops`. -/
def setTodo (s : State) (ops : List MicroOp) : State := { s with todo := ops }
/-- `s.held <- h`. -/
def setHeld (s : State) (h : Option Word) : State := { s with held := h }
/-- `s.mapped <- m`. -/
def setMapped (s : State) (m : Level) : State := { s with mapped := m }
/-- Append a byte to the response stream. -/
def pushOut (s : State) (b : Byte) : State := { s with out := s.out ++ [b] }
/-- Append an event to the diagnostic channel. -/
def pushDiag (s : State) (e : DiagEvent) : State := { s with diag := s.diag ++ [e] }
/-- Append an event to the register history. -/
def pushReg (s : State) (e : RegEvent) : State := { s with regLog := s.regLog ++ [e] }
/-- Append an event to the mapping history. -/
def pushMap (s : State) (e : MapEvent) : State := { s with mapLog := s.mapLog ++ [e] }
/-- Set the pending lifecycle operations. -/
def setLife (s : State) (ops : List LifeOp) : State := { s with life := ops }
/-- Mark the block as terminated from outside (R180). -/
def setKilled (s : State) : State := { s with killed := true }
/-- The environment's word becomes `v`. -/
def setEnvReg (s : State) (v : Word) : State := { s with reg := v }
/-- One unit is consumed: `rest` is what the host has still on offer, and `pos` grows by 1 (R37). -/
def consume (s : State) (rest : List InUnit) : State := { s with input := rest, pos := s.pos + 1 }
/-- The host's offers become `us`. -/
def setInput (s : State) (us : List InUnit) : State := { s with input := us }
/-- The settled turns become `ts`. -/
def setTurns (s : State) (ts : List Turn) : State := { s with turns := ts }
/-- The next free turn has index `n`. -/
def setTick (s : State) (n : Nat) : State := { s with tick := n }

end State

end Sys2Proof.Machine
end

