-- ==== Sys2Proof/Machine/Operands.lean ====
section
/-! DEFINITION. Lines, their register bits and levels: spec/10_state.md rules R21 to R25, and the
order of rule R136. -/

namespace Sys2Proof.Machine

/-- `bitOf` of rule R138. -/
def bitOf : Line → BitIdx
  | .mode => Config.bMode
  | .data => Config.bDataIn
  | .clock => Config.bClock
  | .enable => Config.bEnable

/-- `ackLevel(c)` of rule R24: the CLOCK_ACK value that acknowledges clock level `c`. -/
def ackLevel (c : Level) : Level := if c = true then Config.ackAsserted else !Config.ackAsserted

/-- The ENABLE bit value of `TapEnable(on)` (rules R23, R160). -/
def enableLevel (on : Level) : Level := if on = true then Config.enableOn else !Config.enableOn

/-- The requested level of a line in WRITE c,m,d (rule R130). ENABLE is no line of WRITE. -/
def requested (c m d : Level) : Line → Level
  | .mode => m
  | .data => d
  | .clock => c
  | .enable => Config.enableOn

/-- `order(MD_ORDER)` of rule R136. -/
def mdLines : MdOrder → List Line
  | .modeFirst => [.mode, .data]
  | .dataFirst => [.data, .mode]

/-- The four software-driven bits (rules R21, R26). -/
def softBits : List BitIdx := [Config.bEnable, Config.bClock, Config.bMode, Config.bDataIn]

/-- The two input bits, which a write does not affect (rules R21, R25). -/
def inputBits : List BitIdx := [Config.bDataOut, Config.bClockAck]

/-- The word with exactly the listed bits at 1. -/
def maskOf (bs : List BitIdx) : Word := bs.foldr (fun b m => oneAt b ||| m) 0#32

end Sys2Proof.Machine
end

