-- ==== Sys2Proof/Machine/Flags.lean ====
section
/-! DEFINITION. Driver State: spec/10_state.md rules R30 to R34 and the elision rule R131. The block
has no condition flags (spec/40_protocol_loop.md, head). -/

namespace Sys2Proof.Machine

/-- The last-driven level of a line. ENABLE has none in Driver State (rule R160). -/
def lastDriven (s : State) : Line → Option Level
  | .mode => s.lastMode
  | .data => s.lastData
  | .clock => s.lastClk
  | .enable => none

/-- Rule R131: a line is written exactly when `first == 1` or its requested level differs from its
last-driven level. Judged against Driver State, never against the register (R33). -/
def mustWrite (s : State) (line : Line) (l : Level) : Bool := s.first || lastDriven s line != some l

/-- The Driver State update of `WR(line, l)` (rules R132, R133, R138). `WR(ENABLE, l)` writes no
Driver State field (R160). -/
def commitLine (s : State) (line : Line) (l : Level) : State :=
  match line with
  | .mode => s.setLastMode l
  | .data => s.setLastData l
  | .clock => s.setLastClk l
  | .enable => s

end Sys2Proof.Machine
end

