-- ==== Sys2Proof/Machine/Ops.lean ====
section
/-! DEFINITION. The shared operations: register accesses (spec/20_memory.md), micro-operations
(spec/41_signal_driver.md rule R138), diagnostic events (spec/60_exceptions.md) and the frame every
command's meaning has (spec/40_protocol_loop.md rules R100, R103). The block has no trap, so no
exception is taken and none returned from (R170). -/

namespace Sys2Proof.Machine

/-! ### The register port -/

/-- The word written by the second half of `RMW(b, l)`: bit `b` at level `l`, every other bit as
read (rule R54, in its own formula). -/
def insertBit (b : BitIdx) (l : Level) (v : Word) : Word :=
  (v &&& ~~~(oneAt b)) ||| (BitVec.ofBool l).setWidth 32 <<< b.val

/-- The environment's word after the block writes `v` over `reg` (rule R55): the two input bits keep
the environment's value, every other bit takes the written one. -/
def writeEffect (reg v : Word) : Word :=
  (v &&& ~~~(maskOf inputBits)) ||| (reg &&& maskOf inputBits)

/-- `MemRead(a, 4)` (rule R13). The block reaches one address only (R50). -/
def memRead (a : PAddr) (s : State) : Except Fault Word :=
  if a = Config.regPaddr then .ok s.reg else .error .noSuchAddress

/-- `MemWrite(a, 4, v)` (rule R13). -/
def memWrite (a : PAddr) (v : Word) (s : State) : Except Fault State :=
  if a = Config.regPaddr then .ok (s.setEnvReg (writeEffect s.reg v)) else .error .noSuchAddress

/-- `RegRead()` (rule R52): the environment's present word, recorded; nothing else changes. -/
def regRead (s : State) : Except Fault (Word × State) :=
  if s.mapped = true then
    match memRead Config.regPaddr s with
    | .ok v => .ok (v, s.pushReg (.rd v))
    | .error e => .error e
  else .error .unmappedAccess

/-- `RegWrite(v)` (rule R53). -/
def regWrite (v : Word) (s : State) : Except Fault State :=
  if s.mapped = true then
    match memWrite Config.regPaddr v s with
    | .ok s' => .ok (s'.pushReg (.wr v))
    | .error e => .error e
  else .error .unmappedAccess

/-! ### Streams -/

/-- The output symbol of a DATA_OUT level (rules R23, R150): `'1'` = 0x31, `'0'` = 0x30. -/
def symbol (l : Level) : Byte := if l = true then 0x31#8 else 0x30#8

/-- The cause code of a diagnostic event (rule R172, the spec's own numbering). -/
def causeCode : DiagEvent → Nat
  | .unknownCmd _ => 1
  | .mapFail => 2
  | .unmapWithoutMap => 3

/-- `raise`/`Diag(e)` (rules R13, R171): the event goes out on the diagnostic channel. No control
transfer follows (R170). -/
def raiseEvent (e : DiagEvent) (s : State) : State := s.pushDiag e

/-! ### Micro-operations -/

/-- One micro-operation, `rest` being what follows it in `todo` (rule R138). It pops itself, but for
a poll whose read did not match. -/
def runOp (op : MicroOp) (rest : List MicroOp) (s : State) : Except Fault State :=
  match op with
  | .rd _ _ =>
    match regRead s with
    | .ok (v, s') => .ok ((s'.setHeld (some v)).setTodo rest)
    | .error e => .error e
  | .wr line l =>
    match s.held with
    | some v =>
      match regWrite (insertBit (bitOf line) l v) s with
      | .ok s' => .ok ((commitLine (s'.setHeld none) line l).setTodo rest)
      | .error e => .error e
    | none => .error .noHeldWord
  | .poll e =>
    match regRead s with
    | .ok (v, s') => .ok (if bitAt v Config.bClockAck = e then s'.setTodo rest else s')
    | .error e => .error e
  | .fin => .ok ((s.setFirst false).setTodo rest)
  | .sample =>
    match regRead s with
    | .ok (v, s') => .ok ((s'.setHeld (some v)).setTodo rest)
    | .error e => .error e
  | .emit =>
    match s.held with
    | some v => .ok (((s.pushOut (symbol (bitAt v Config.bDataOut))).setHeld none).setTodo rest)
    | none => .error .noHeldWord
  | .diagu b => .ok ((raiseEvent (.unknownCmd b) s).setTodo rest)

/-- "when s.todo == []: s.phase <- next phase" (rule R138). -/
def settle (after : Phase) (s : State) : State :=
  match s.todo with
  | [] => s.setPhase after
  | _ :: _ => s

/-- `step_exec` of rule R138: the head of `todo`, then the phase change if `todo` has run out. -/
def runTodo (after : Phase) (s : State) : Result :=
  match s.todo with
  | [] => .next (s.setPhase after)
  | op :: rest =>
    match runOp op rest s with
    | .ok s' => .next (settle after s')
    | .error e => .fault e

/-- The dispatch half of `step_fetch` (rule R100): the command's phase and its micro-operations; a
command with none moves on at once (R164). -/
def dispatch (cmd : Cmd) (ops : List MicroOp) (after : Phase) (s : State) : State :=
  settle after ((s.setPhase (.exec cmd)).setTodo ops)

/-- One block step of a command: its dispatch in FETCH, its next micro-operation in EXEC (rules
R100, R103). `ops` is its expansion and `after` its next phase when done. -/
def perform (cmd : Cmd) (ops : List MicroOp) (after : Phase) (s : State) : Result :=
  match s.phase with
  | .fetch => .next (dispatch cmd ops after s)
  | .exec cur => if cur = cmd then runTodo after s else .fault .wrongPhase
  | .map => .fault .wrongPhase
  | .start => .fault .wrongPhase
  | .stop => .fault .wrongPhase
  | .release _ => .fault .wrongPhase
  | .exited _ => .fault .wrongPhase

end Sys2Proof.Machine
end

