-- ==== Sys2Proof/Machine/Driver.lean ====
section
/-! DEFINITION. The Signal Driver, WRITE: spec/41_signal_driver.md. -/

namespace Sys2Proof.Machine

/-- The read-modify-write of a mode or data line, if it is written (rules R132, R138). -/
def lineOps (written : Bool) (line : Line) (l : Level) : List MicroOp :=
  if written = true then [.rd line l, .wr line l] else []

/-- The clock's read-modify-write and poll, if it is written (rules R133, R138). -/
def clockOps (written : Bool) (c : Level) : List MicroOp :=
  if written = true then [.rd .clock c, .wr .clock c, .poll (ackLevel c)] else []

/-- The micro-operations of one call, given which lines it writes: mode and data in `order`, then
clock, then FIN (rules R136 to R138). -/
def driverOps (order : MdOrder) (w : Line → Bool) (c m d : Level) : List MicroOp :=
  (mdLines order).flatMap (fun line => lineOps (w line) line (requested c m d line))
    ++ clockOps (w .clock) c ++ [.fin]

/-- `expand(WRITE(c,m,d), s)` of rule R138. -/
def expandWrite (c m d : Level) (s : State) : List MicroOp :=
  driverOps Config.mdOrder (fun line => mustWrite s line (requested c m d line)) c m d

/-- WRITE c,m,d (rule R130). -/
def execWrite (c m d : Level) (s : State) : Result :=
  perform (.instr (.write c m d)) (expandWrite c m d s) .fetch s

end Sys2Proof.Machine
end

