-- ==== Sys2Proof/Machine/Loop.lean ====
section
/-! DEFINITION. The commands of the Protocol Loop that are no stubs and touch no register: QUIT, EOS
and INVALID (spec/40_protocol_loop.md rules R110, R111, R118). -/

namespace Sys2Proof.Machine

/-- QUIT (rule R110): to STOP at once. -/
def execQuit (s : State) : Result := perform (.instr .quit) [] .stop s

/-- EOS (rule R111): to STOP at once. -/
def execEos (s : State) : Result := perform .eos [] .stop s

/-- INVALID(b) (rule R118): one diagnostic event, then back to FETCH. -/
def execInvalid (b : Byte) (s : State) : Result := perform (.invalid b) [.diagu b] .fetch s

end Sys2Proof.Machine
end

