-- ==== Sys2Proof/Machine/Reader.lean ====
section
/-! DEFINITION. The Status Reader, READ: spec/42_status_reader.md. -/

namespace Sys2Proof.Machine

/-- READ (rules R150, R151): SAMPLE, then EMIT. -/
def execRead (s : State) : Result := perform (.instr .read) [.sample, .emit] .fetch s

end Sys2Proof.Machine
end

