-- ==== Sys2Proof/Machine/Stubs.lean ====
section
/-! DEFINITION. The stub commands: accepted, no effect, no diagnostic (spec/40_protocol_loop.md
rules R112 to R117, spec/30_encoding.md rule R80). -/

namespace Sys2Proof.Machine

/-- BLINK_UPPER (rule R112): `skip`, then FETCH. -/
def execBlinkUpper (s : State) : Result := perform (.instr .blinkUpper) [] .fetch s

/-- BLINK_LOWER (rule R113): `skip`, then FETCH. -/
def execBlinkLower (s : State) : Result := perform (.instr .blinkLower) [] .fetch s

/-- RESET_R (rule R114): `skip`, then FETCH. Driver State keeps its value. -/
def execResetR (s : State) : Result := perform (.instr .resetR) [] .fetch s

/-- RESET_R1 (rule R115): `skip`, then FETCH. -/
def execResetR1 (s : State) : Result := perform (.instr .resetR1) [] .fetch s

/-- RESET_R2 (rule R116): `skip`, then FETCH. -/
def execResetR2 (s : State) : Result := perform (.instr .resetR2) [] .fetch s

/-- RESET_R3 (rule R117): `skip`, then FETCH. -/
def execResetR3 (s : State) : Result := perform (.instr .resetR3) [] .fetch s

end Sys2Proof.Machine
end

