-- ==== Sys2Proof/Machine/Dispatch.lean ====
section
/-! DEFINITION. Dispatch of an instruction to its meaning (spec/40_protocol_loop.md rule R103). -/

namespace Sys2Proof.Machine

def exec (i : Instr) (s : State) : Host.Outcome State Fault Refusal :=
  match i with
  | .write c m d => Sys2Proof.Machine.execWrite c m d s
  | .read => Sys2Proof.Machine.execRead s
  | .quit => Sys2Proof.Machine.execQuit s
  | .blinkUpper => Sys2Proof.Machine.execBlinkUpper s
  | .blinkLower => Sys2Proof.Machine.execBlinkLower s
  | .resetR => Sys2Proof.Machine.execResetR s
  | .resetR1 => Sys2Proof.Machine.execResetR1 s
  | .resetR2 => Sys2Proof.Machine.execResetR2 s
  | .resetR3 => Sys2Proof.Machine.execResetR3 s

end Sys2Proof.Machine
end

