-- ==== Sys2Proof/Machine/Session.lean ====
section
/-! DEFINITION. TAP Enable Control and the session lifecycle: spec/43_tap_enable.md. -/

namespace Sys2Proof.Machine

/-- `TapEnable(on)` as micro-operations (rules R160, R161): one read-modify-write, never elided. -/
def tapEnableOps (on : Level) : List MicroOp :=
  [.rd .enable (enableLevel on), .wr .enable (enableLevel on)]

/-- One pending lifecycle operation (rules R164, R166, R167). -/
def runLifeOp (op : LifeOp) (rest : List LifeOp) (s : State) : State :=
  match op with
  | .reportMapFail => ((raiseEvent .mapFail s).setLife rest).setPhase (.release .failure)
  | .reportUnmap => (raiseEvent .unmapWithoutMap s).setLife rest
  | .exit st => (s.setLife rest).setPhase (.exited st)

/-- `acquire()` and its answer (rules R164, R165, R166). OK: the mapping is held and the TAP enable
is next. FAIL: the report of MAP_FAIL is next. -/
def acquire (ok : Bool) (s : State) : State :=
  if ok = true then
    (((s.pushMap .acquired).setMapped true).setPhase .start).setTodo (tapEnableOps true)
  else (s.pushMap .acquireFailed).setLife [.reportMapFail]

/-- MAP (rule R164). -/
def mapStep (t : Turn) (s : State) : Result :=
  match s.life with
  | op :: rest => .next (runLifeOp op rest s)
  | [] => .next (acquire t.acquireOk s)

/-- START (rule R164). -/
def startStep (s : State) : Result := runTodo .fetch s

/-- STOP (rule R164): it loads `TapEnable(0)` and runs it. -/
def stopStep (s : State) : Result :=
  match s.todo with
  | [] => runTodo (.release .success) (s.setTodo (tapEnableOps false))
  | _ :: _ => runTodo (.release .success) s

/-- What follows `release()`: on the failure path possibly the report of UNMAP_WITHOUT_MAP, a draw
(rule R167; its place after the release is a DESIGN CHOICE, log 12, unsafe); then the exit. -/
def afterRelease (report : Bool) (st : Status) : List LifeOp :=
  match st with
  | .failure => if report = true then [.reportUnmap, .exit .failure] else [.exit .failure]
  | .success => [.exit .success]

/-- `release()` (rules R164, R165): the register port is unusable from here on. -/
def release (report : Bool) (st : Status) (s : State) : State :=
  ((s.pushMap .released).setMapped false).setLife (afterRelease report st)

/-- RELEASE(st) (rule R164). -/
def releaseStep (t : Turn) (st : Status) (s : State) : Result :=
  match s.life with
  | op :: rest => .next (runLifeOp op rest s)
  | [] => .next (release t.unmapReport st s)

/-- What the exit output presents (rules R45, R180). KILLED has no number. -/
inductive ExitOutput where
  | code (n : Int)
  | killed
  deriving DecidableEq, Repr

/-- The exit output (rules R45, R164, R180): nothing before the end. -/
def exitOutput (s : State) : Option ExitOutput :=
  if s.killed = true then some .killed
  else match s.phase with
    | .exited .success => some (.code Config.exitOk)
    | .exited .failure => some (.code Config.exitFail)
    | .map => none
    | .start => none
    | .fetch => none
    | .exec _ => none
    | .stop => none
    | .release _ => none

end Sys2Proof.Machine
end

