-- ==== Sys2Proof/Machine/World.lean ====
section
/-! DEFINITION. The outside world's moves between two block steps: spec/20_memory.md rule R57 and
spec/10_state.md rule R40. -/

namespace Sys2Proof.Machine

/-- The register word after an environment move proposes `w` (rules R26, R57): the four
software-driven bits stay, every other bit is the environment's. -/
def envMove (reg w : Word) : Word :=
  (reg &&& maskOf softBits) ||| (w &&& ~~~(maskOf softBits))

/-- The next turn of the outside world: the first settled one, else a free one. -/
def nextTurn (s : State) : Turn :=
  match s.turns with
  | t :: _ => t
  | [] => Config.turn s.tick

/-- The outside world's part of the state after turn `t`: the environment has moved and the host
may have offered a unit, in order (R57, R194). The block's own state is untouched. -/
def applyTurn (t : Turn) (s : State) : State :=
  (((s.setEnvReg (envMove s.reg t.env)).setInput (s.input ++ t.offer.toList)).setTurns
    s.turns.tail).setTick (s.tick + 1)

/-- The state in which the block takes its next step. -/
def worldMove (s : State) : State := applyTurn (nextTurn s) s

/-- A turn in which nothing changes and nobody acts. -/
def quietTurn (s : State) : Turn where
  env := s.reg
  offer := none
  kill := false
  acquireOk := true
  unmapReport := false

end Sys2Proof.Machine
end

