-- ==== Sys2Proof/Machine/Fetch.lean ====
section
/-! DEFINITION. The fetch (spec/40_protocol_loop.md rules R100, R101) and the session state machine
(spec/43_tap_enable.md rule R164). -/

namespace Sys2Proof.Machine

/-- Dispatch of a decoded command (rule R103). -/
def execCmd (cmd : Cmd) (s : State) : Result :=
  match cmd with
  | .instr i => exec i s
  | .invalid b => execInvalid b s
  | .eos => execEos s

/-- FETCH (rules R100, R101): consume one unit and dispatch its command. While the host offers
nothing the block takes no step, and only the outside world has moved. -/
def fetchStep (s : State) : Result :=
  match s.input with
  | u :: rest => execCmd (decode u) (s.consume rest)
  | [] => .next s

/-- One block step by phase (rule R164), `s` being the state after turn `t`. -/
def blockStep (t : Turn) (s : State) : Result :=
  match s.phase with
  | .map => mapStep t s
  | .start => startStep s
  | .fetch => fetchStep s
  | .exec cmd => execCmd cmd s
  | .stop => stopStep s
  | .release st => releaseStep t st s
  | .exited st => .fault (.sessionOver st)

/-- The block can take no further step: EXITED(st) (rule R168), or terminated from outside (R180). -/
def ended (s : State) : Option Fault :=
  if s.killed = true then some .terminated
  else match s.phase with
    | .exited st => some (.sessionOver st)
    | .map => none
    | .start => none
    | .fetch => none
    | .exec _ => none
    | .stop => none
    | .release _ => none

/-- One step of the machine: the outside world's turn, then the block's step, unless the host
terminates the block in that turn (rules R57, R164, R180). -/
def machineStep (s : State) : Result :=
  match ended s with
  | some f => .fault f
  | none =>
    if (nextTurn s).kill = true then .next (worldMove s).setKilled
    else blockStep (nextTurn s) (worldMove s)

/-- The state with `b` as the host's next byte and the block waiting for it in FETCH, the session
started and a quiet turn next. -/
def offerNext (b : Byte) (s : State) : State :=
  { s with
    phase := .fetch
    todo := []
    held := none
    mapped := true
    life := []
    killed := false
    input := .byte b :: s.input
    turns := quietTurn s :: s.turns }

end Sys2Proof.Machine
end

