-- ==== Sys2Proof/Machine/Step.lean ====
section
/-! DEFINITION. The machine's step and how a test places an instruction. -/

namespace Sys2Proof.Machine

/-- One step of the machine (spec/00_scope.md rule R4). -/
def step (s : State) : Host.Outcome State Fault Refusal := machineStep s

/-- `s` with the instruction's byte where the next step fetches it: on the input port, the block in
FETCH with the session started (spec/40_protocol_loop.md rule R100). -/
def State.withFetchWord (s : State) (nbits w : Nat) : State := offerNext (tableByte nbits w) s

end Sys2Proof.Machine
end

