-- ==== Sys2Proof/Safety.lean ====
section
/-! DEFINITION. The terms statements use: when the block takes a step, runs of several steps, the
environment laws of spec/20_memory.md rule R58, and the invariants. -/

namespace Sys2Proof.Machine

/-! ### Steps and runs -/

/-- The block takes its step: the session is not over, and the host does not terminate it in this
turn (rules R168, R180). -/
def TakesStep (s : State) : Prop := ended s = none ∧ (nextTurn s).kill = false

/-- `n` steps of the machine. -/
def run (n : Nat) (s : State) : Result := Host.Core.run Sys2Proof.core n s

/-- The next `n` turns of the outside world are settled, and in none of them does the host
terminate the block. -/
def CalmFor (n : Nat) (s : State) : Prop :=
  n ≤ s.turns.length ∧ ∀ t ∈ s.turns.take n, t.kill = false

/-- In each of the next `n` settled turns the environment presents CLOCK_ACK at level `e`. -/
def AckFor (n : Nat) (e : Level) (s : State) : Prop :=
  ∀ t ∈ s.turns.take n, bitAt t.env Config.bClockAck = e

/-- The block's own fields agree (rule R46): all but the register, the host's offers and the turns. -/
def SameBlock (s t : State) : Prop :=
  t.phase = s.phase ∧ t.first = s.first ∧ t.lastClk = s.lastClk ∧ t.lastMode = s.lastMode ∧
  t.lastData = s.lastData ∧ t.todo = s.todo ∧ t.held = s.held ∧ t.mapped = s.mapped ∧
  t.pos = s.pos ∧ t.out = s.out ∧ t.diag = s.diag ∧ t.regLog = s.regLog ∧ t.life = s.life ∧
  t.mapLog = s.mapLog

/-- Driver State agrees (rule R30). -/
def SameDriver (s t : State) : Prop :=
  t.first = s.first ∧ t.lastClk = s.lastClk ∧ t.lastMode = s.lastMode ∧ t.lastData = s.lastData

/-- The outside world's part of the state agrees, but for the register. -/
def SameWorld (s t : State) : Prop :=
  t.input = s.input ∧ t.turns = s.turns ∧ t.tick = s.tick ∧ t.killed = s.killed

/-- The fields no micro-operation writes (rule R138). -/
def SameSession (s t : State) : Prop :=
  t.mapped = s.mapped ∧ t.pos = s.pos ∧ t.life = s.life ∧ t.mapLog = s.mapLog

/-- The phases whose list holds read-modify-writes (rules R138, R160): START, STOP and a WRITE. -/
def RunsWrites (s : State) : Prop :=
  s.phase = .start ∨ s.phase = .stop ∨ ∃ c m d, s.phase = .exec (.instr (.write c m d))

/-- The micro-operations the next step starts on: the list, which STOP loads first (rule R164). -/
def pendingOps (s : State) : List MicroOp :=
  if s.phase = .stop ∧ s.todo = [] then tapEnableOps false else s.todo

/-! ### Environment laws -/

/-- `EnvLaw` (rule R57): a relation on consecutive environment words that may read the block's
register events. -/
abbrev EnvLaw := List RegEvent → Word → Word → Prop

/-- The next turn's environment move keeps the law. -/
def Obeys (law : EnvLaw) (s : State) : Prop :=
  law s.regLog s.reg (envMove s.reg (nextTurn s).env)

/-- The unconstrained law (rule R57). -/
def envFree : EnvLaw := fun _ _ _ => True

/-- `ENV_NOACK` (rule R58): CLOCK_ACK never changes. -/
def envNoAck : EnvLaw := fun _ reg reg' =>
  bitAt reg' Config.bClockAck = bitAt reg Config.bClockAck

/-- The word `ENV_ACK(dOut)` presents, `log` being the register events so far (rule R58). -/
def envAckWord (dOut : Word → Word → Level) (log : List RegEvent) (reg : Word) : Word :=
  match log.reverse with
  | .wr v :: .rd p :: _ =>
    let acked := insertBit Config.bClockAck (ackLevel (bitAt v Config.bClock)) reg
    if bitAt v Config.bClock = bitAt p Config.bClock then acked
    else insertBit Config.bDataOut (dOut p v) acked
  | _ => reg

/-- `ENV_ACK(dOut)` (rule R58). -/
def envAck (dOut : Word → Word → Level) : EnvLaw := fun log reg reg' =>
  reg' = envAckWord dOut log reg

/-- `ENV_ACK_MIRROR` (rule R58): on a rising CLOCK edge DATA_OUT takes DATA_IN of the written word. -/
def envAckMirror : EnvLaw := envAck fun p v =>
  if bitAt v Config.bClock = true then bitAt v Config.bDataIn else bitAt p Config.bDataOut

/-! ### Invariants -/

/-- The head of the list uses the held word (rule R138: WR and EMIT). -/
def usesHeld : List MicroOp → Bool
  | .wr _ _ :: _ => true
  | .emit :: _ => true
  | _ => false

/-- The micro-operations may be what is left of the command (rule R138). The commands that move on
at once have none to run. -/
def LeftOf (cmd : Cmd) (todo : List MicroOp) : Prop :=
  match cmd with
  | .instr (.write c m d) => ∃ w, todo <:+ driverOps Config.mdOrder w c m d
  | .instr .read => todo <:+ [.sample, .emit]
  | .invalid b => todo <:+ [.diagu b] ∧ isInvalidByte b = true
  | .instr .quit => False
  | .instr .blinkUpper => False
  | .instr .blinkLower => False
  | .instr .resetR => False
  | .instr .resetR1 => False
  | .instr .resetR2 => False
  | .instr .resetR3 => False
  | .eos => False

/-- The mapping answer behind an exit status (rules R164, R166). -/
def openedBy : Status → MapEvent
  | .success => .acquired
  | .failure => .acquireFailed

/-- Every diagnostic event so far reports an invalid byte. -/
def OnlyUnknown (ds : List DiagEvent) : Prop :=
  ∀ e ∈ ds, ∃ b, e = .unknownCmd b ∧ isInvalidByte b = true

/-- The histories of a session that ends with `st` (rules R166, R167, R173, R175). -/
def ClosedHistories (st : Status) (reported : Bool) (s : State) : Prop :=
  match st with
  | .success => OnlyUnknown s.diag
  | .failure => s.pos = 0 ∧ s.regLog = [] ∧ s.out = [] ∧
      (s.diag = [.mapFail] ∨ (reported = true ∧ s.diag = [.mapFail, .unmapWithoutMap]))

/-- What each phase holds (rules R35, R36, R38, R164 to R168), as the model stages MAP and RELEASE
(logs 1 and 12), STOP (log 16) and the commands with an empty list (log 21). -/
def PhaseHolds (s : State) : Prop :=
  match s.phase with
  | .map => s.mapped = false ∧ s.todo = [] ∧ s.pos = 0 ∧ s.regLog = [] ∧ s.out = [] ∧ s.diag = [] ∧
      ((s.life = [] ∧ s.mapLog = []) ∨ (s.life = [.reportMapFail] ∧ s.mapLog = [.acquireFailed]))
  | .start => s.mapped = true ∧ s.life = [] ∧ s.mapLog = [.acquired] ∧ s.pos = 0 ∧ s.out = [] ∧
      s.diag = [] ∧ s.todo ≠ [] ∧ s.todo <:+ tapEnableOps true
  | .fetch => s.mapped = true ∧ s.life = [] ∧ s.mapLog = [.acquired] ∧ OnlyUnknown s.diag ∧
      s.todo = []
  | .exec cmd => s.mapped = true ∧ s.life = [] ∧ s.mapLog = [.acquired] ∧ OnlyUnknown s.diag ∧
      s.todo ≠ [] ∧ LeftOf cmd s.todo
  | .stop => s.mapped = true ∧ s.life = [] ∧ s.mapLog = [.acquired] ∧ OnlyUnknown s.diag ∧
      (s.todo = [] ∨ s.todo = [.wr .enable (enableLevel false)])
  | .release st => s.todo = [] ∧
      ((s.life = [] ∧ s.mapLog = [openedBy st] ∧ s.mapped = decide (st = .success) ∧
          ClosedHistories st false s) ∨
        (s.mapLog = [openedBy st, .released] ∧ s.mapped = false ∧
          ((s.life = [.exit st] ∧ ClosedHistories st true s) ∨
            (st = .failure ∧ s.life = [.reportUnmap, .exit st] ∧ ClosedHistories st false s))))
  | .exited st => s.todo = [] ∧ s.life = [] ∧ s.mapped = false ∧
      s.mapLog = [openedBy st, .released] ∧ ClosedHistories st true s

/-- The session invariant: the phase's fields, and a held word exactly where one is used next. -/
def SessionInv (s : State) : Prop := s.held.isSome = usesHeld s.todo ∧ PhaseHolds s

/-- The register mirrors Driver State (rules R26, R33): a line's bit is its last-driven level, and a
held word agrees with the register on the software-driven bits. -/
def LineMirror (s : State) : Prop :=
  (∀ line l, lastDriven s line = some l → bitAt s.reg (bitOf line) = l) ∧
  ∀ v, s.held = some v → ∀ i ∈ softBits, bitAt v i = bitAt s.reg i

/-- The TAP is enabled while commands run (rule R163). -/
def TapEnabled (s : State) : Prop :=
  match s.phase with
  | .fetch => bitAt s.reg Config.bEnable = Config.enableOn
  | .exec _ => bitAt s.reg Config.bEnable = Config.enableOn
  | .stop => bitAt s.reg Config.bEnable = Config.enableOn
  | .map => True
  | .start => True
  | .release _ => True
  | .exited _ => True

/-- Driver State between and inside calls (rules R30, R31, R141): with `first = 0` every level has a
value; outside a call `first = 1` means none has; inside WRITE c,m,d every line whose write is not
still to come has the requested level. -/
def DriverKnown (s : State) : Prop :=
  (s.first = false → ∀ line, line ≠ .enable → lastDriven s line ≠ none) ∧
  match s.phase with
  | .exec (.instr (.write c m d)) => ∀ line, line ≠ .enable →
      .wr line (requested c m d line) ∉ s.todo → lastDriven s line = some (requested c m d line)
  | _ => s.first = true → ∀ line, lastDriven s line = none

/-- The response stream holds only `'0'` and `'1'` (rules R41, R152). -/
def OutputBits (s : State) : Prop := ∀ b ∈ s.out, b = 0x30#8 ∨ b = 0x31#8

/-- How many units, bytes and events the block's histories hold together (rules R37, R39). -/
def eventCount (s : State) : Nat :=
  s.pos + s.out.length + s.diag.length + s.regLog.length + s.mapLog.length

/-- The micro-operation accesses the register (rule R138). -/
def touchesRegister : MicroOp → Bool
  | .rd _ _ => true
  | .wr _ _ => true
  | .poll _ => true
  | .sample => true
  | .fin => false
  | .emit => false
  | .diagu _ => false

/-- The register accesses of a list of micro-operations, each poll reading once (rule R137). -/
def accessCount (ops : List MicroOp) : Nat := ops.countP touchesRegister

end Sys2Proof.Machine
end

