-- ==== Sys2Proof/Certificates/Slice0/Obligations.lean ====
section
/-! DEFINITION. The statements for the provers. In a statement about `exec`, the state is the one the
block's step acts on, after the outside world's turn. -/

open Sys2Proof Sys2Proof.Machine

/-! ### Encoding (spec/30_encoding.md) -/

/-- Words written out from rules R71 and R75 (decisions D12, D13: ASCII, log 18) decode to the
commands they stand for. -/
def Obligations.CommandBytesDecode : Prop :=
  decodeByte 0b00110101#8 = .instr (.write true false true) ∧
  decodeByte 0b00110110#8 = .instr (.write true true false) ∧
  decodeByte 0b00110001#8 = .instr (.write false false true) ∧
  decodeByte 0b01010010#8 = .instr .read ∧ decodeByte 0b01010001#8 = .instr .quit ∧
  decodeByte 0b01000010#8 = .instr .blinkUpper ∧ decodeByte 0b01100010#8 = .instr .blinkLower ∧
  decodeByte 0b01110010#8 = .instr .resetR ∧ decodeByte 0b01110011#8 = .instr .resetR1 ∧
  decodeByte 0b01110100#8 = .instr .resetR2 ∧ decodeByte 0b01110101#8 = .instr .resetR3 ∧
  decodeByte 0b01110001#8 = .invalid 0x71#8 ∧ decode .eos = .eos

/-- R78 (the spec's own inference): a byte is invalid exactly in the six listed ranges, and every
other byte is an instruction. -/
def Obligations.InvalidBytesAreTheListedRanges : Prop :=
  ∀ b : Byte, (decodeByte b = .invalid b ↔ isInvalidByte b = true) ∧
    (isInvalidByte b = false → ∃ i, decodeByte b = .instr i)

/-- R76 (the spec's own inference): no two rows of the opcode map overlap, and a byte that fits none
is invalid. -/
def Obligations.OpcodeRowsDoNotOverlap : Prop :=
  ∀ b : Byte, (opcodeRows.filter fun r => r.fits b).length = if isInvalidByte b = true then 0 else 1

/-- Decoding an instruction's byte gives the instruction back. -/
def Obligations.InstructionRoundTrip : Prop := ∀ i : Instr, decodeByte (encode i) = .instr i

/-- Decode and encode agree in both directions on whole unit streams: every program of well-formed
commands is read back as itself (R70, R76, R82), and no bit of a unit is dropped. -/
def Obligations.ProgramRoundTrip : Prop :=
  (∀ p : List Cmd, (∀ c ∈ p, c.wf = true) → decodeStream (encodeProgram p) = p) ∧
  ∀ us : List InUnit, encodeProgram (decodeStream us) = us ∧ ∀ c ∈ decodeStream us, c.wf = true

/-! ### Steps -/

/-- R100: when the unit next on the input port decodes to instruction `i`, the step in FETCH is
`exec i`, after the outside world's turn, with the unit consumed and `pos` one more. -/
def Obligations.StepRunsDecodedInstruction : Prop :=
  ∀ (s : State) (u : InUnit) (rest : List InUnit) (i : Instr),
    TakesStep s → s.phase = .fetch → (worldMove s).input = u :: rest → decode u = .instr i →
    step s = exec i ((worldMove s).consume rest) ∧
      ((worldMove s).consume rest).pos = s.pos + 1 ∧ ((worldMove s).consume rest).input = rest

/-- R103: while an instruction runs, every step is `exec` of it after the outside world's turn. -/
def Obligations.StepContinuesRunningInstruction : Prop :=
  ∀ (s : State) (i : Instr), TakesStep s → s.phase = .exec (.instr i) →
    step s = exec i (worldMove s)

/-- R101: while the host offers nothing the block takes no step. That the machine's step is then a
next state in which only the outside world has moved is the model's choice (log 9). -/
def Obligations.SilentHostLeavesBlockWaiting : Prop :=
  ∀ s : State, TakesStep s → s.phase = .fetch → (worldMove s).input = [] →
    step s = .next (worldMove s) ∧ SameBlock s (worldMove s)

/-- R57 (decision D9, log 19): a turn (log 2) leaves the block and the four software-driven bits as
they are; every other bit can take any value in it. -/
def Obligations.EnvironmentMovesOnlyItsBits : Prop :=
  (∀ s : State, SameBlock s (worldMove s) ∧
    ∀ i ∈ softBits, bitAt (worldMove s).reg i = bitAt s.reg i) ∧
  ∀ (s : State) (w : Word), ∃ t : Turn, t.kill = false ∧
    ∀ i, i ∉ softBits → bitAt (applyTurn t s).reg i = bitAt w i

/-- R26 (decision D9, log 19): a software-driven bit changes only in a step in which the block
writes the register, and then to the bit it writes. -/
def Obligations.SoftwareBitsChangeOnlyByWrites : Prop :=
  ∀ s t : State, step s = .next t → ∀ i ∈ softBits, bitAt t.reg i ≠ bitAt s.reg i →
    ∃ v, t.regLog = s.regLog ++ [.wr v] ∧ bitAt v i = bitAt t.reg i

/-- R37 (decision D26): `pos` grows by exactly 1 with each unit consumed, which happens only in
FETCH, and in no other way; units are consumed from the front of the host's offers. -/
def Obligations.PosCountsConsumedUnits : Prop :=
  ∀ s t : State, step s = .next t →
    (t.pos = s.pos ∧ ∃ us, t.input = s.input ++ us) ∨
    (t.pos = s.pos + 1 ∧ s.phase = .fetch ∧ ∃ u us, s.input ++ us = u :: t.input)

/-- R4, R65 (decisions D30, D8): the histories only grow, and one step adds at most one unit, byte
or event to all of them together. That the mapping actions are steps of their own is log 1. -/
def Obligations.StepAddsAtMostOneEvent : Prop :=
  ∀ s t : State, step s = .next t → eventCount t ≤ eventCount s + 1 ∧
    s.out <+: t.out ∧ s.diag <+: t.diag ∧ s.regLog <+: t.regLog ∧ s.mapLog <+: t.mapLog

/-- R43: the register is accessed only while the mapping is held. -/
def Obligations.RegisterAccessOnlyWhileMapped : Prop :=
  ∀ s t : State, step s = .next t → t.regLog ≠ s.regLog → s.mapped = true

/-- R164 (decision D30): the phases move only along the listed lines; each phase may take several
steps (log 1). -/
def Obligations.PhasesMoveAsListed : Prop :=
  ∀ s t : State, SessionInv s → step s = .next t → t.phase = s.phase ∨
    (s.phase = .map ∧ (t.phase = .start ∨ t.phase = .release .failure)) ∨
    (s.phase = .start ∧ t.phase = .fetch) ∨
    (s.phase = .fetch ∧ (t.phase = .stop ∨ ∃ cmd, t.phase = .exec cmd)) ∨
    (∃ cmd, s.phase = .exec cmd ∧ t.phase = .fetch) ∨
    (s.phase = .stop ∧ t.phase = .release .success) ∨
    (∃ st, s.phase = .release st ∧ t.phase = .exited st)

/-- R104: the loop (FETCH and EXEC) is left only by fetching QUIT or EOS, to STOP. -/
def Obligations.LoopEndsOnlyOnQuitOrEos : Prop :=
  ∀ s t : State, SessionInv s → step s = .next t →
    (s.phase = .fetch ∨ ∃ cmd, s.phase = .exec cmd) →
    t.phase ≠ .fetch → (∀ cmd, t.phase ≠ .exec cmd) →
    s.phase = .fetch ∧ t.phase = .stop ∧ ∃ u rest, (worldMove s).input = u :: rest ∧
      (decode u = .instr .quit ∨ decode u = .eos)

/-- R102: a unit is consumed only with nothing left of the command before it, and one at a time.
While a command runs nothing is consumed and no other command runs; its list is worked off from the
front, an operation at a time, and the block is back in FETCH only when nothing is left. -/
def Obligations.NextUnitWaitsForTheCommand : Prop :=
  ∀ s t : State, SessionInv s → step s = .next t →
    (t.pos ≠ s.pos → s.phase = .fetch ∧ s.todo = [] ∧ s.held = none ∧ t.pos = s.pos + 1) ∧
    ∀ cmd, s.phase = .exec cmd → t.pos = s.pos ∧ (∃ us, t.input = s.input ++ us) ∧
      (t.todo = s.todo ∨ ∃ op, s.todo = op :: t.todo) ∧
      ((t.phase = .exec cmd ∧ t.todo ≠ []) ∨ (t.phase = .fetch ∧ t.todo = []))

/-! ### WRITE (spec/41_signal_driver.md) -/

/-- R131, R136, R138: the dispatch of WRITE lists a read-modify-write for each line that is new or
changed against Driver State, and for no other; nothing else changes. The form of the list is R138's
(the spec's own inference); clock last, and the order of mode and data by a parameter, is R136
(decision D5, log 6); a level without value with `first` 0 is log 13. -/
def Obligations.WriteExpandsByDriverState : Prop :=
  ∀ (c m d : Level) (s : State), s.phase = .fetch →
    let modePart : List MicroOp :=
      if s.first = true ∨ s.lastMode ≠ some m then [.rd .mode m, .wr .mode m] else []
    let dataPart : List MicroOp :=
      if s.first = true ∨ s.lastData ≠ some d then [.rd .data d, .wr .data d] else []
    let clockPart : List MicroOp :=
      if s.first = true ∨ s.lastClk ≠ some c
      then [.rd .clock c, .wr .clock c, .poll (ackLevel c)] else []
    let mdPart := match Config.mdOrder with
      | .modeFirst => modePart ++ dataPart
      | .dataFirst => dataPart ++ modePart
    exec (.write c m d) s = .next { s with
      phase := .exec (.instr (.write c m d)), todo := mdPart ++ clockPart ++ [.fin] }

/-- R54 step 1, R56, R52 (decision D8, log 19): the first half of a line's read-modify-write reads
the live register into `held`, and changes nothing else but the history. -/
def Obligations.WriteReadsLiveRegister : Prop :=
  ∀ (c m d : Level) (s : State) (line : Line) (l : Level) (op : MicroOp) (rest : List MicroOp),
    s.phase = .exec (.instr (.write c m d)) → s.todo = .rd line l :: op :: rest →
    s.mapped = true →
    exec (.write c m d) s = .next { s with
      held := some s.reg, todo := op :: rest, regLog := s.regLog ++ [.rd s.reg] }

/-- R54 step 2, R55 (decision D25), R132, R133: the second half writes the held word with the line's
bit at its level; the register takes it but for the two input bits; Driver State takes the level. -/
def Obligations.WriteCommitsOneLine : Prop :=
  ∀ (c m d : Level) (s : State) (line : Line) (l : Level) (v : Word) (op : MicroOp)
    (rest : List MicroOp),
    s.phase = .exec (.instr (.write c m d)) → s.todo = .wr line l :: op :: rest →
    s.held = some v → s.mapped = true →
    ∃ (t : State) (w : Word), exec (.write c m d) s = .next t ∧
      (∀ i, bitAt w i = if i = bitOf line then l else bitAt v i) ∧
      (∀ i, bitAt t.reg i = if i ∈ inputBits then bitAt s.reg i else bitAt w i) ∧
      t.regLog = s.regLog ++ [.wr w] ∧ t.held = none ∧ t.todo = op :: rest ∧
      (∀ line', lastDriven t line' =
        if line' = line ∧ line ≠ .enable then some l else lastDriven s line') ∧
      t.phase = s.phase ∧ t.first = s.first ∧ t.out = s.out ∧ t.diag = s.diag ∧
      SameSession s t ∧ SameWorld s t

/-- R134, R143 (the spec's own inference): a poll step makes one fresh read; it ends the poll
exactly when CLOCK_ACK reads `e`, and changes nothing else but the history. -/
def Obligations.PollEndsOnFirstMatchingRead : Prop :=
  ∀ (c m d : Level) (s : State) (e : Level) (op : MicroOp) (rest : List MicroOp),
    s.phase = .exec (.instr (.write c m d)) → s.todo = .poll e :: op :: rest → s.mapped = true →
    exec (.write c m d) s = .next { s with
      todo := if bitAt s.reg Config.bClockAck = e then op :: rest else .poll e :: op :: rest
      regLog := s.regLog ++ [.rd s.reg] }

/-- R135, R139 (decision D11): FIN clears `first`, makes no external event and ends the call. -/
def Obligations.FinEndsTheCall : Prop :=
  ∀ (c m d : Level) (s : State), s.phase = .exec (.instr (.write c m d)) → s.todo = [.fin] →
    exec (.write c m d) s = .next { s with first := false, todo := [], phase := .fetch }

/-- The frame of WRITE: whatever step of it runs, no output, diagnostic, mapping, `pos` or
outside-world field changes; the register changes only in a WR step, at the line's bit and at the
unrelated bits, which take the held word's values; the input bits and ENABLE never change. -/
def Obligations.WriteFrame : Prop :=
  ∀ (c m d : Level) (s t : State), SessionInv s → LineMirror s →
    exec (.write c m d) s = .next t →
    t.out = s.out ∧ t.diag = s.diag ∧ SameSession s t ∧ SameWorld s t ∧
    (∀ i, bitAt t.reg i ≠ bitAt s.reg i → i ∉ inputBits ∧ i ≠ Config.bEnable ∧
      ∃ line l rest v, s.todo = .wr line l :: rest ∧ s.held = some v ∧
        ((i = bitOf line ∧ bitAt t.reg i = l) ∨ (i ∉ softBits ∧ bitAt t.reg i = bitAt v i))) ∧
    (∀ line, lastDriven t line ≠ lastDriven s line →
      ∃ l rest, s.todo = .wr line l :: rest ∧ lastDriven t line = some l) ∧
    (t.first ≠ s.first → s.todo = [.fin] ∧ t.first = false)

/-- R131, R142 (the spec's own inference): a WRITE whose three levels all equal the last-driven ones
takes its fetch and FIN, and makes no register access. -/
def Obligations.RepeatedWriteMakesNoAccess : Prop :=
  ∀ (c m d : Level) (s : State) (rest : List InUnit), ended s = none → CalmFor 2 s →
    s.phase = .fetch → s.input = .byte (encode (.write c m d)) :: rest →
    s.first = false → s.lastClk = some c → s.lastMode = some m → s.lastData = some d →
    ∃ t, run 2 s = .next t ∧ t.phase = .fetch ∧ t.todo = [] ∧ t.pos = s.pos + 1 ∧
      t.regLog = s.regLog ∧ SameDriver s t ∧ t.out = s.out ∧ t.diag = s.diag

/-- R136 (decision D5): in a WRITE's list, no mode or data access comes after a clock access or the
poll. -/
def Obligations.ClockComesAfterModeAndData : Prop :=
  ∀ (c m d : Level) (s : State) (pre post : List MicroOp) (op : MicroOp),
    expandWrite c m d s = pre ++ op :: post →
    (op = .rd .clock c ∨ op = .wr .clock c ∨ op = .poll (ackLevel c)) →
    ∀ op' ∈ post, ∀ line l, op' = .rd line l ∨ op' = .wr line l → line = .clock

/-- R137 (the spec's own inference): with one poll read, a WRITE makes two accesses for each of mode
and data that is written, and three for clock if it is written. -/
def Obligations.WriteAccessCount : Prop :=
  ∀ (c m d : Level) (s : State), accessCount (expandWrite c m d s) =
    (if s.first = true ∨ s.lastMode ≠ some m then 2 else 0) +
    (if s.first = true ∨ s.lastData ≠ some d then 2 else 0) +
    (if s.first = true ∨ s.lastClk ≠ some c then 3 else 0)

/-- R141, R192 (the spec's own inferences): a WRITE completes when the environment presents the
awaited acknowledge: back in FETCH, Driver State and the three lines at the requested levels,
`first` cleared, `pos` one more, the accesses of R137 made with one poll read, and no output or
diagnostic. The settled turns are log 2; that the lines keep what the block wrote is log 19
(decision D9). -/
def Obligations.WriteCompletesWhenAcknowledged : Prop :=
  ∀ (c m d : Level) (s : State) (rest : List InUnit) (n : Nat),
    n = (expandWrite c m d s).length + 1 → ended s = none → CalmFor n s →
    AckFor n (ackLevel c) s → SessionInv s → LineMirror s → s.phase = .fetch →
    s.input = .byte (encode (.write c m d)) :: rest →
    ∃ t, run n s = .next t ∧ t.phase = .fetch ∧ t.todo = [] ∧ t.first = false ∧
      t.lastClk = some c ∧ t.lastMode = some m ∧ t.lastData = some d ∧
      bitAt t.reg Config.bClock = c ∧ bitAt t.reg Config.bMode = m ∧
      bitAt t.reg Config.bDataIn = d ∧ t.pos = s.pos + 1 ∧
      t.regLog.length = s.regLog.length + accessCount (expandWrite c m d s) ∧
      t.out = s.out ∧ t.diag = s.diag ∧ t.mapped = true

/-- R174: while no read shows the awaited level, the block makes nothing but register reads, for any
number of steps: it fetches, emits and reports nothing and stays in the poll. The settled turns are
log 2; that the software-driven bits stay is R57 (decision D9, log 19). -/
def Obligations.PollHangsWithoutAcknowledge : Prop :=
  ∀ (n : Nat) (c m d : Level) (s : State) (e : Level) (rest : List MicroOp),
    ended s = none → CalmFor n s → AckFor n (!e) s → s.mapped = true →
    s.phase = .exec (.instr (.write c m d)) → s.todo = .poll e :: rest →
    ∃ (t : State) (vs : List Word), run n s = .next t ∧ vs.length = n ∧
      t.regLog = s.regLog ++ vs.map .rd ∧ t.phase = s.phase ∧ t.todo = s.todo ∧
      SameDriver s t ∧ SameSession s t ∧ t.out = s.out ∧ t.diag = s.diag ∧
      ∀ i ∈ softBits, bitAt t.reg i = bitAt s.reg i

/-- R58 (test environments), R143 (the spec's own inference): under ENV_ACK the first poll read
after the clock write ends the poll. Under ENV_NOACK the present CLOCK_ACK decides: the next read
ends a poll that it matches, and a poll that it does not match goes on with the same CLOCK_ACK, so
that the clause applies again. How a law is read on a turn is log 24. -/
def Obligations.NamedLawsDecideThePoll : Prop :=
  (∀ (dOut : Word → Word → Level) (c m d : Level) (s : State) (log : List RegEvent) (p v : Word)
    (op : MicroOp) (rest : List MicroOp), TakesStep s → Obeys (envAck dOut) s →
    s.mapped = true → s.phase = .exec (.instr (.write c m d)) →
    s.todo = .poll (ackLevel c) :: op :: rest → s.regLog = log ++ [.rd p, .wr v] →
    bitAt v Config.bClock = c → ∃ t, step s = .next t ∧ t.todo = op :: rest) ∧
  ∀ (c m d : Level) (s : State) (e : Level) (op : MicroOp) (rest : List MicroOp), TakesStep s →
    Obeys envNoAck s → s.mapped = true → s.phase = .exec (.instr (.write c m d)) →
    s.todo = .poll e :: op :: rest →
    ∃ t, step s = .next t ∧ t.phase = s.phase ∧ t.mapped = true ∧
      bitAt t.reg Config.bClockAck = bitAt s.reg Config.bClockAck ∧
      t.todo = if bitAt s.reg Config.bClockAck = e then op :: rest else .poll e :: op :: rest

/-- R58 (a test environment): under ENV_ACK_MIRROR a rising clock write puts the written DATA_IN on
DATA_OUT. -/
def Obligations.MirrorLawCopiesDataOnRisingClock : Prop :=
  ∀ (s : State) (log : List RegEvent) (p v : Word), Obeys envAckMirror s →
    s.regLog = log ++ [.rd p, .wr v] → bitAt p Config.bClock = false →
    bitAt v Config.bClock = true →
    bitAt (worldMove s).reg Config.bDataOut = bitAt v Config.bDataIn ∧
      bitAt (worldMove s).reg Config.bClockAck = ackLevel true

/-- R200, R61 (the spec's own inferences): in every read-modify-write, of a WRITE, of START and of
STOP, an environment change to an unrelated bit between the read and the write is lost: the bit ends
as the read saw it. The two input bits are not exposed to it. That STOP loads its list in its first
step is log 16, the turns are log 2. -/
def Obligations.UpdateInsideReadModifyWriteIsLost : Prop :=
  ∀ (s : State) (line : Line) (l : Level) (rest : List MicroOp) (t₁ t₂ : Turn) (ts : List Turn),
    ended s = none → s.mapped = true → RunsWrites s →
    pendingOps s = .rd line l :: .wr line l :: rest →
    s.turns = t₁ :: t₂ :: ts → t₁.kill = false → t₂.kill = false →
    ∃ t, run 2 s = .next t ∧ t.todo = rest ∧ ∀ i, i ∉ softBits →
      bitAt t.reg i = if i ∈ inputBits then bitAt t₂.env i else bitAt t₁.env i

/-! ### READ (spec/42_status_reader.md) -/

/-- R151 (the spec's own inference): READ's three steps: its dispatch, one register read, one output
byte, each changing nothing else. That a read changes nothing is log 19, that the byte is always
taken log 20. -/
def Obligations.ReadSamplesThenEmits : Prop :=
  (∀ s : State, s.phase = .fetch → exec .read s =
    .next { s with phase := .exec (.instr .read), todo := [.sample, .emit] }) ∧
  (∀ s : State, s.phase = .exec (.instr .read) → s.todo = [.sample, .emit] → s.mapped = true →
    exec .read s = .next { s with
      held := some s.reg, todo := [.emit], regLog := s.regLog ++ [.rd s.reg] }) ∧
  ∀ (s : State) (v : Word), s.phase = .exec (.instr .read) → s.todo = [.emit] →
    s.held = some v → exec .read s = .next { s with
      out := s.out ++ [if bitAt v Config.bDataOut = true then 0x31#8 else 0x30#8]
      held := none, todo := [], phase := .fetch }

/-- R150: READ from its fetch to its end: exactly one register read and one byte, which reports
DATA_OUT as the environment presents it at that read; no write, no Driver State change. The three
steps are R151 (the spec's own inference), the settled turns log 2, the byte that is always taken
log 20 (decision D19), and the software-driven bits that stay log 19 (decision D9). -/
def Obligations.ReadReportsPresentDataOut : Prop :=
  ∀ (s : State) (rest : List InUnit) (t₁ t₂ t₃ : Turn) (ts : List Turn), ended s = none →
    s.turns = t₁ :: t₂ :: t₃ :: ts → t₁.kill = false → t₂.kill = false → t₃.kill = false →
    s.phase = .fetch → s.mapped = true → s.input = .byte (encode .read) :: rest →
    ∃ (t : State) (v : Word), run 3 s = .next t ∧ t.phase = .fetch ∧ t.todo = [] ∧
      t.held = none ∧ t.pos = s.pos + 1 ∧ t.regLog = s.regLog ++ [.rd v] ∧
      bitAt v Config.bDataOut = bitAt t₂.env Config.bDataOut ∧
      t.out = s.out ++ [if bitAt t₂.env Config.bDataOut = true then 0x31#8 else 0x30#8] ∧
      SameDriver s t ∧ t.diag = s.diag ∧ ∀ i ∈ softBits, bitAt t.reg i = bitAt s.reg i

/-- R153: the frame of READ: no step of it changes the register (reads without side effect: decision
D8, log 19), Driver State, the diagnostics, the session's or the outside world's fields. -/
def Obligations.ReadFrame : Prop :=
  ∀ s t : State, SessionInv s → exec .read s = .next t →
    t.reg = s.reg ∧ SameDriver s t ∧ t.diag = s.diag ∧ SameSession s t ∧ SameWorld s t

/-- R152: only READ writes the response stream, one symbol at a time. -/
def Obligations.OnlyReadWritesOutput : Prop :=
  ∀ s t : State, SessionInv s → step s = .next t → t.out = s.out ∨
    (s.phase = .exec (.instr .read) ∧ s.todo = [.emit] ∧ ∃ v, s.held = some v ∧
      t.out = s.out ++ [if bitAt v Config.bDataOut = true then 0x31#8 else 0x30#8])

/-- R173, R175 (the spec's own inferences): the diagnostic history grows only by the report of an
invalid byte while it runs, by MAP_FAIL as the first event of a session whose mapping failed, and by
UNMAP_WITHOUT_MAP after MAP_FAIL and before the exit. No report changes the register history, the
register's software-driven bits, Driver State, the response stream or `pos`. That UNMAP_WITHOUT_MAP
comes after the release is the model's choice (log 12): R173 does not order the two, and vector
V-MAPFAIL lists the report first. That each report is a step is log 1, that the bits stay log 19. -/
def Obligations.DiagnosticsGrowOnlyByTheThreeReports : Prop :=
  ∀ s t : State, SessionInv s → step s = .next t → t.diag ≠ s.diag →
    ((∃ b, s.phase = .exec (.invalid b) ∧ s.todo = [.diagu b] ∧ isInvalidByte b = true ∧
        t.diag = s.diag ++ [.unknownCmd b] ∧ t.phase = .fetch) ∨
      (s.phase = .map ∧ s.life = [.reportMapFail] ∧ s.mapLog = [.acquireFailed] ∧ s.pos = 0 ∧
        s.regLog = [] ∧ t.diag = [.mapFail] ∧ t.phase = .release .failure) ∨
      (s.phase = .release .failure ∧ s.mapLog = [.acquireFailed, .released] ∧
        s.diag = [.mapFail] ∧ t.diag = [.mapFail, .unmapWithoutMap] ∧ t.phase = s.phase)) ∧
    t.regLog = s.regLog ∧ SameDriver s t ∧ t.out = s.out ∧ t.pos = s.pos ∧
      ∀ i ∈ softBits, bitAt t.reg i = bitAt s.reg i

/-! ### Stubs, QUIT, EOS, INVALID (spec/40_protocol_loop.md) -/

/-- R112 to R117 (decision D20): a stub completes in its dispatch (log 21) and changes nothing. -/
def Obligations.StubsChangeNothing : Prop :=
  ∀ (i : Instr) (s : State), i = .blinkUpper ∨ i = .blinkLower ∨ i = .resetR ∨ i = .resetR1 ∨
    i = .resetR2 ∨ i = .resetR3 → s.phase = .fetch → exec i s = .next { s with todo := [] }

/-- R80, R112 to R117 (decision D20): the whole effect of a stub's byte on the machine is that it is
consumed and `pos` is one more, beside the outside world's turn. That it takes no step but its fetch
is log 21. -/
def Obligations.StubStepOnlyAdvancesPos : Prop :=
  ∀ (i : Instr) (s : State) (rest : List InUnit), i = .blinkUpper ∨ i = .blinkLower ∨
    i = .resetR ∨ i = .resetR1 ∨ i = .resetR2 ∨ i = .resetR3 → TakesStep s → s.phase = .fetch →
    s.todo = [] → (worldMove s).input = .byte (encode i) :: rest →
    step s = .next { worldMove s with input := rest, pos := s.pos + 1 }

/-- R110: QUIT writes the phase only, and it is STOP. -/
def Obligations.QuitGoesToStop : Prop :=
  ∀ s : State, s.phase = .fetch → exec .quit s = .next { s with phase := .stop, todo := [] }

/-- R110, R111, R162, R119 (decision D22), R161 (decision D23), R164 (decision D30): after QUIT or
EOS is fetched the block disables the TAP by one read-modify-write, releases the mapping and exits
with SUCCESS, and consumes no further unit. The five steps are the model's reading (logs 1, 16 and
21), the settled turns log 2, and that ENABLE stays disabled after its write is log 19 (decision
D9). -/
def Obligations.QuitAndEosEndTheSession : Prop :=
  ∀ (s : State) (u : InUnit) (rest : List InUnit), ended s = none → CalmFor 5 s →
    s.phase = .fetch → s.mapped = true → s.life = [] → s.input = u :: rest →
    (decode u = .instr .quit ∨ decode u = .eos) →
    ∃ (t : State) (v w : Word) (us : List InUnit), run 5 s = .next t ∧
      t.phase = .exited .success ∧ exitOutput t = some (.code Config.exitOk) ∧
      t.mapped = false ∧ t.mapLog = s.mapLog ++ [.released] ∧ t.pos = s.pos + 1 ∧
      t.input = rest ++ us ∧ t.regLog = s.regLog ++ [.rd v, .wr w] ∧
      (∀ i, bitAt w i = if i = Config.bEnable then !Config.enableOn else bitAt v i) ∧
      bitAt t.reg Config.bEnable = (!Config.enableOn) ∧
      SameDriver s t ∧ t.out = s.out ∧ t.diag = s.diag

/-- R118 (decision D21: the event carries the byte): a run of invalid bytes gives exactly one
UNKNOWN_CMD event per byte, with the byte, in order, and no other effect; the loop goes on. The
settled turns are log 2; that the software-driven bits stay is R26 and R57 (decision D9, log 19). -/
def Obligations.InvalidBytesEachMakeOneReport : Prop :=
  ∀ (bs : List Byte) (s : State) (rest : List InUnit), (∀ b ∈ bs, isInvalidByte b = true) →
    ended s = none → CalmFor (2 * bs.length) s → s.phase = .fetch → s.todo = [] →
    s.input = bs.map .byte ++ rest →
    ∃ (t : State) (us : List InUnit), run (2 * bs.length) s = .next t ∧
      t.diag = s.diag ++ bs.map .unknownCmd ∧ t.phase = .fetch ∧ t.todo = [] ∧
      t.pos = s.pos + bs.length ∧ t.input = rest ++ us ∧ t.out = s.out ∧ t.regLog = s.regLog ∧
      SameDriver s t ∧ t.mapped = s.mapped ∧ t.mapLog = s.mapLog ∧
      ∀ i ∈ softBits, bitAt t.reg i = bitAt s.reg i

/-! ### Session (spec/43_tap_enable.md, spec/60_exceptions.md) -/

/-- R160, R161 (decision D23), R162, R164 (decision D30), R193: when the mapping is acquired, the
block enables the TAP by one read-modify-write of the ENABLE bit and only then is ready to fetch.
The three steps are log 1, the settled turns log 2, and that ENABLE stays as written is log 19
(decision D9). -/
def Obligations.SessionStartEnablesTap : Prop :=
  ∀ (s : State) (t₁ t₂ t₃ : Turn) (ts : List Turn), ended s = none → s.phase = .map →
    s.life = [] → s.turns = t₁ :: t₂ :: t₃ :: ts → t₁.kill = false → t₂.kill = false →
    t₃.kill = false → t₁.acquireOk = true →
    ∃ (t : State) (v w : Word), run 3 s = .next t ∧ t.phase = .fetch ∧ t.todo = [] ∧
      t.mapped = true ∧ t.mapLog = s.mapLog ++ [.acquired] ∧
      t.regLog = s.regLog ++ [.rd v, .wr w] ∧
      (∀ i, bitAt w i = if i = Config.bEnable then Config.enableOn else bitAt v i) ∧
      bitAt t.reg Config.bEnable = Config.enableOn ∧ t.pos = s.pos ∧ SameDriver s t ∧
      t.out = s.out ∧ t.diag = s.diag

/-- R166, R167 (decision D16): when the mapping fails, the block reports MAP_FAIL, releases once,
possibly reports UNMAP_WITHOUT_MAP, and exits with FAILURE, with no register access and no fetch.
The four or five steps are the model's reading (log 1), as is the draw of the report in the turn of
the release (log 12); the settled turns are log 2, and that the software-driven bits stay is R26 and
R57 (decision D9, log 19). -/
def Obligations.MappingFailureEndsWithoutAccess : Prop :=
  ∀ (s : State) (t₁ t₂ t₃ t₄ t₅ : Turn) (ts : List Turn), ended s = none → s.phase = .map →
    s.life = [] → s.turns = t₁ :: t₂ :: t₃ :: t₄ :: t₅ :: ts → t₁.kill = false →
    t₂.kill = false → t₃.kill = false → t₄.kill = false → t₅.kill = false →
    t₁.acquireOk = false →
    ∃ (t : State) (us : List InUnit), run (if t₃.unmapReport = true then 5 else 4) s = .next t ∧
      t.phase = .exited .failure ∧ exitOutput t = some (.code Config.exitFail) ∧
      t.diag = s.diag ++ (if t₃.unmapReport = true then [.mapFail, .unmapWithoutMap]
        else [.mapFail]) ∧
      t.mapLog = s.mapLog ++ [.acquireFailed, .released] ∧ t.regLog = s.regLog ∧
      t.pos = s.pos ∧ t.input = s.input ++ us ∧ t.out = s.out ∧ SameDriver s t ∧
      ∀ i ∈ softBits, bitAt t.reg i = bitAt s.reg i

/-- R45, R9, R180 (decisions D15, D17): the two exit values differ, and each end presents its own.
-/
def Obligations.ExitOutputsAreDistinct : Prop :=
  Config.exitOk ≠ Config.exitFail ∧ ∀ s : State,
    (s.killed = true → exitOutput s = some .killed) ∧
    (s.killed = false → s.phase = .exited .success →
      exitOutput s = some (.code Config.exitOk)) ∧
    (s.killed = false → s.phase = .exited .failure →
      exitOutput s = some (.code Config.exitFail)) ∧
    (s.killed = false → (∀ st, s.phase ≠ .exited st) → exitOutput s = none)

/-- R180 (decision D17): an external termination stops the block where it is: its fields and the
software-driven bits stay, the status is KILLED, and no step follows. The form of a termination is
log 11, that no step follows is a fault by log 10, and that the bits stay is log 19. -/
def Obligations.TerminationStopsTheBlock : Prop :=
  ∀ s : State, ended s = none → (nextTurn s).kill = true →
    ∃ t, step s = .next t ∧ SameBlock s t ∧ exitOutput t = some .killed ∧
      (∀ i ∈ softBits, bitAt t.reg i = bitAt s.reg i) ∧ step t = .fault .terminated

/-- R168: in EXITED(st) the block takes no step; the fault is the model's form of it (log 10). -/
def Obligations.ExitedTakesNoStep : Prop :=
  ∀ (s : State) (st : Status), s.killed = false → s.phase = .exited st →
    step s = .fault (.sessionOver st)

/-- R47, R190: the reset values; the register's word is a draw (R27, decision D24), the model's free
value of log 3. -/
def Obligations.ResetValuesAreTheSpecs : Prop :=
  State.reset.phase = .map ∧ State.reset.first = true ∧ State.reset.lastClk = none ∧
  State.reset.lastMode = none ∧ State.reset.lastData = none ∧ State.reset.todo = [] ∧
  State.reset.held = none ∧ State.reset.mapped = false ∧ State.reset.pos = 0 ∧
  State.reset.out = [] ∧ State.reset.diag = [] ∧ State.reset.regLog = [] ∧
  State.reset.reg = Config.initialReg

/-- 93 U22, R52, R53: while the register is not mapped, an access is a fault: for the two
operations, and for the first step of a line's read-modify-write. -/
def Obligations.UnmappedAccessFaults : Prop :=
  ∀ s : State, s.mapped = false → regRead s = .error .unmappedAccess ∧
    (∀ v, regWrite v s = .error .unmappedAccess) ∧
    ∀ c m d line l rest, s.phase = .exec (.instr (.write c m d)) →
      s.todo = .rd line l :: rest → exec (.write c m d) s = .fault .unmappedAccess

/-- Where a meaning stops: an instruction called while neither FETCH nor its own EXEC is the phase
(the model's choice, log 15), and a write or an output step without a held word (the model's choice,
log 14). From a state with the session invariant `step` gives no fault but the two that name the end
of the run (log 10). -/
def Obligations.MeaningsStopByName : Prop :=
  (∀ (i : Instr) (s : State), s.phase ≠ .fetch → s.phase ≠ .exec (.instr i) →
    exec i s = .fault .wrongPhase) ∧
  (∀ c m d line l rest (s : State), s.phase = .exec (.instr (.write c m d)) →
    s.todo = .wr line l :: rest → s.held = none → exec (.write c m d) s = .fault .noHeldWord) ∧
  (∀ rest (s : State), s.phase = .exec (.instr .read) → s.todo = .emit :: rest → s.held = none →
    exec .read s = .fault .noHeldWord) ∧
  ∀ (s : State) (f : Fault), SessionInv s → step s = .fault f →
    f = .terminated ∨ ∃ st, f = .sessionOver st

/-- R52 (decision D8, log 19): while mapped, `RegRead()` returns the environment's present word,
records it and changes nothing else; R55 (decision D25): `RegWrite(v)` reaches every bit but the two
input bits. -/
def Obligations.RegisterTransactions : Prop :=
  ∀ (s : State) (v : Word), s.mapped = true →
    regRead s = .ok (s.reg, { s with regLog := s.regLog ++ [.rd s.reg] }) ∧
    ∃ w, regWrite v s = .ok { s with reg := w, regLog := s.regLog ++ [.wr v] } ∧
      ∀ i, bitAt w i = if i = Config.bDataOut ∨ i = Config.bClockAck then bitAt s.reg i
        else bitAt v i

/-- R24 (decision D4): the value a poll waits for; it is `c` itself exactly where `ACK_ASSERTED` is
1. -/
def Obligations.AckLevelFollowsClock : Prop :=
  ackLevel true = Config.ackAsserted ∧ ackLevel false = (!Config.ackAsserted) ∧
    ∀ c, ackLevel c = c ↔ Config.ackAsserted = true

/-- R9 (decision D2): the six bit indices are pairwise distinct. -/
def Obligations.FieldBitsAreDistinct : Prop :=
  [Config.bEnable, Config.bClock, Config.bMode, Config.bDataIn, Config.bDataOut,
    Config.bClockAck].Nodup

/-- R32: only WRITE writes Driver State. -/
def Obligations.OnlyWriteChangesDriverState : Prop :=
  ∀ s t : State, SessionInv s → step s = .next t → ¬ SameDriver s t →
    ∃ c m d, s.phase = .exec (.instr (.write c m d))

/-! ### Invariants -/

/-- The session invariant is kept by every step: what each phase holds by rules R35 to R38 and R164
to R168, and the mapping released at most once, at the end. The model's choices in it are the
staging of MAP and RELEASE in `life` and `mapped` (log 1), UNMAP_WITHOUT_MAP only after the release
(log 12; vector V-MAPFAIL lists it before), the list of STOP, empty on entry (log 16), and that the
stubs, QUIT and EOS have no EXEC (log 21). -/
def Obligations.SessionInvariantIsKept : Prop :=
  ∀ s t : State, SessionInv s → step s = .next t → SessionInv t

/-- No fault before the end: from every state that meets the session invariant, the machine answers
a next state until the session is over or terminated. While the host is silent (R101) and in a
termination (R180) the block takes no step, and the next state is the model's choice (logs 9 and
11). -/
def Obligations.StepsUntilTheSessionEnds : Prop :=
  ∀ s : State, SessionInv s → ended s = none → ∃ t, step s = .next t

/-- R33, R26 (decision D9, log 19): the register's lines always hold the last-driven levels. -/
def Obligations.LineMirrorIsKept : Prop :=
  ∀ s t : State, LineMirror s → step s = .next t → LineMirror t

/-- R163 (the spec's own inference; decision D9, log 19): ENABLE holds ENABLE_ON from the first
fetch until the disable. -/
def Obligations.TapStaysEnabled : Prop :=
  ∀ s t : State, SessionInv s → LineMirror s → TapEnabled s → step s = .next t → TapEnabled t

/-- R141 (the spec's own inference), R31: Driver State is known between calls exactly after the
first, and inside a call every line already served has the requested level. -/
def Obligations.DriverStateIsKnown : Prop :=
  ∀ s t : State, SessionInv s → DriverKnown s → step s = .next t → DriverKnown t

/-- R41: the response stream only ever holds `'0'` and `'1'`. -/
def Obligations.OutputAlphabetIsKept : Prop :=
  ∀ s t : State, OutputBits s → step s = .next t → OutputBits t

/-- The invariants hold at reset. -/
def Obligations.ResetMeetsTheInvariants : Prop :=
  SessionInv State.reset ∧ LineMirror State.reset ∧ TapEnabled State.reset ∧
    DriverKnown State.reset ∧ OutputBits State.reset
end

