-- ==== Sys2Proof/Laws/Bits.lean ====
section
/-! SUPPORT. What the word operations do to each bit. -/

namespace Sys2Proof.Machine

theorem bitAt_ext {v w : Word} (h : ∀ i, bitAt v i = bitAt w i) : v = w :=
  BitVec.eq_of_getLsbD_eq fun i hi => h ⟨i, hi⟩

@[simp] theorem bitAt_oneAt (b i : BitIdx) : bitAt (oneAt b) i = decide (i = b) := by
  simp only [bitAt, oneAt, Fin.ext_iff, BitVec.getLsbD_shiftLeft, BitVec.getLsbD_one]
  have := i.isLt
  by_cases h : i.val = b.val <;> simp [h]
  omega

@[simp] theorem bitAt_or (v w : Word) (i : BitIdx) :
    bitAt (v ||| w) i = (bitAt v i || bitAt w i) := by simp [bitAt]

@[simp] theorem bitAt_and (v w : Word) (i : BitIdx) :
    bitAt (v &&& w) i = (bitAt v i && bitAt w i) := by simp [bitAt]

@[simp] theorem bitAt_not (v : Word) (i : BitIdx) : bitAt (~~~v) i = !bitAt v i := by
  simp [bitAt]

@[simp] theorem bitAt_zero (i : BitIdx) : bitAt 0#32 i = false := by simp [bitAt]

@[simp] theorem bitAt_allOnes (i : BitIdx) : bitAt (BitVec.allOnes 32) i = true := by
  simp only [bitAt, BitVec.getLsbD_allOnes, i.isLt, decide_true]

@[simp] theorem bitAt_maskOf (bs : List BitIdx) (i : BitIdx) :
    bitAt (maskOf bs) i = decide (i ∈ bs) := by
  induction bs with
  | nil => simp [maskOf]
  | cons b bs ih =>
    have : maskOf (b :: bs) = oneAt b ||| maskOf bs := rfl
    simp [this, ih]

/-- The shifted level of the read-modify-write formula (rule R54). -/
theorem bitAt_levelAt (b i : BitIdx) (l : Level) :
    bitAt ((BitVec.ofBool l).setWidth 32 <<< b.val) i = (decide (i = b) && l) := by
  cases l
  · simp [bitAt]
  · have : (BitVec.ofBool true).setWidth 32 <<< b.val = oneAt b := by simp [oneAt]
    rw [this, bitAt_oneAt, Bool.and_true]

/-- Rule R54: bit `b` is `l`, every other bit is as read. -/
@[simp] theorem bitAt_insertBit (b i : BitIdx) (l : Level) (v : Word) :
    bitAt (insertBit b l v) i = if i = b then l else bitAt v i := by
  by_cases h : i = b <;> simp [insertBit, bitAt_levelAt, h]

/-- Rule R55: the input bits keep the environment's value, every other bit is as written. -/
@[simp] theorem bitAt_writeEffect (reg v : Word) (i : BitIdx) :
    bitAt (writeEffect reg v) i = if i ∈ inputBits then bitAt reg i else bitAt v i := by
  by_cases h : i ∈ inputBits <;> simp [writeEffect, h]

/-- Rule R57: the software-driven bits stay, every other bit is the environment's. -/
@[simp] theorem bitAt_envMove (reg w : Word) (i : BitIdx) :
    bitAt (envMove reg w) i = if i ∈ softBits then bitAt reg i else bitAt w i := by
  by_cases h : i ∈ softBits <;> simp [envMove, h]

/-- An environment that proposes the present word changes nothing. -/
@[simp] theorem envMove_self (reg : Word) : envMove reg reg = reg :=
  bitAt_ext fun i => by simp

/-- The six fields lie at distinct bits (rule R9). -/
theorem fieldPlace_eq_iff (a b : BitIdx) : Config.fieldPlace a = Config.fieldPlace b ↔ a = b :=
  Config.fieldPlace.apply_eq_iff_eq

/-- Distinct lines have distinct bits. -/
@[simp] theorem bitOf_eq_iff (a b : Line) : bitOf a = bitOf b ↔ a = b := by
  cases a <;> cases b <;>
    simp [bitOf, Config.bEnable, Config.bClock, Config.bMode, Config.bDataIn]

@[simp] theorem bitOf_mem_softBits (l : Line) : bitOf l ∈ softBits := by
  cases l <;> simp [bitOf, softBits]

/-- A software-driven bit is no input bit. -/
theorem softBits_not_input {i : BitIdx} (h : i ∈ softBits) : i ∉ inputBits := by
  simp only [softBits, inputBits, List.mem_cons, List.not_mem_nil, or_false, Config.bEnable,
    Config.bClock, Config.bMode, Config.bDataIn, Config.bDataOut, Config.bClockAck] at *
  rcases h with h | h | h | h <;> subst h <;> simp

@[simp] theorem bitOf_not_input (l : Line) : bitOf l ∉ inputBits :=
  softBits_not_input (bitOf_mem_softBits l)

/-- CLOCK_ACK is the environment's bit. -/
@[simp] theorem bClockAck_not_soft : Config.bClockAck ∉ softBits := by
  intro h; exact softBits_not_input h (by simp [inputBits])

/-- DATA_OUT is the environment's bit. -/
@[simp] theorem bDataOut_not_soft : Config.bDataOut ∉ softBits := by
  intro h; exact softBits_not_input h (by simp [inputBits])

end Sys2Proof.Machine
end

