-- ==== Sys2Proof/Laws/State.lean ====
section
/-! SUPPORT. One lemma per field per update of the state, each true by `rfl`. -/

namespace Sys2Proof.Machine.State

@[simp] theorem setPhase_phase (s : State) (p : Phase) : (s.setPhase p).phase = p := rfl
@[simp] theorem setPhase_first (s : State) (p : Phase) : (s.setPhase p).first = s.first := rfl
@[simp] theorem setPhase_lastClk (s : State) (p : Phase) : (s.setPhase p).lastClk = s.lastClk := rfl
@[simp] theorem setPhase_lastMode (s : State) (p : Phase) : (s.setPhase p).lastMode = s.lastMode := rfl
@[simp] theorem setPhase_lastData (s : State) (p : Phase) : (s.setPhase p).lastData = s.lastData := rfl
@[simp] theorem setPhase_todo (s : State) (p : Phase) : (s.setPhase p).todo = s.todo := rfl
@[simp] theorem setPhase_held (s : State) (p : Phase) : (s.setPhase p).held = s.held := rfl
@[simp] theorem setPhase_mapped (s : State) (p : Phase) : (s.setPhase p).mapped = s.mapped := rfl
@[simp] theorem setPhase_pos (s : State) (p : Phase) : (s.setPhase p).pos = s.pos := rfl
@[simp] theorem setPhase_out (s : State) (p : Phase) : (s.setPhase p).out = s.out := rfl
@[simp] theorem setPhase_diag (s : State) (p : Phase) : (s.setPhase p).diag = s.diag := rfl
@[simp] theorem setPhase_regLog (s : State) (p : Phase) : (s.setPhase p).regLog = s.regLog := rfl
@[simp] theorem setPhase_life (s : State) (p : Phase) : (s.setPhase p).life = s.life := rfl
@[simp] theorem setPhase_mapLog (s : State) (p : Phase) : (s.setPhase p).mapLog = s.mapLog := rfl
@[simp] theorem setPhase_killed (s : State) (p : Phase) : (s.setPhase p).killed = s.killed := rfl
@[simp] theorem setPhase_reg (s : State) (p : Phase) : (s.setPhase p).reg = s.reg := rfl
@[simp] theorem setPhase_input (s : State) (p : Phase) : (s.setPhase p).input = s.input := rfl
@[simp] theorem setPhase_turns (s : State) (p : Phase) : (s.setPhase p).turns = s.turns := rfl
@[simp] theorem setPhase_tick (s : State) (p : Phase) : (s.setPhase p).tick = s.tick := rfl

@[simp] theorem setFirst_phase (s : State) (l : Level) : (s.setFirst l).phase = s.phase := rfl
@[simp] theorem setFirst_first (s : State) (l : Level) : (s.setFirst l).first = l := rfl
@[simp] theorem setFirst_lastClk (s : State) (l : Level) : (s.setFirst l).lastClk = s.lastClk := rfl
@[simp] theorem setFirst_lastMode (s : State) (l : Level) : (s.setFirst l).lastMode = s.lastMode := rfl
@[simp] theorem setFirst_lastData (s : State) (l : Level) : (s.setFirst l).lastData = s.lastData := rfl
@[simp] theorem setFirst_todo (s : State) (l : Level) : (s.setFirst l).todo = s.todo := rfl
@[simp] theorem setFirst_held (s : State) (l : Level) : (s.setFirst l).held = s.held := rfl
@[simp] theorem setFirst_mapped (s : State) (l : Level) : (s.setFirst l).mapped = s.mapped := rfl
@[simp] theorem setFirst_pos (s : State) (l : Level) : (s.setFirst l).pos = s.pos := rfl
@[simp] theorem setFirst_out (s : State) (l : Level) : (s.setFirst l).out = s.out := rfl
@[simp] theorem setFirst_diag (s : State) (l : Level) : (s.setFirst l).diag = s.diag := rfl
@[simp] theorem setFirst_regLog (s : State) (l : Level) : (s.setFirst l).regLog = s.regLog := rfl
@[simp] theorem setFirst_life (s : State) (l : Level) : (s.setFirst l).life = s.life := rfl
@[simp] theorem setFirst_mapLog (s : State) (l : Level) : (s.setFirst l).mapLog = s.mapLog := rfl
@[simp] theorem setFirst_killed (s : State) (l : Level) : (s.setFirst l).killed = s.killed := rfl
@[simp] theorem setFirst_reg (s : State) (l : Level) : (s.setFirst l).reg = s.reg := rfl
@[simp] theorem setFirst_input (s : State) (l : Level) : (s.setFirst l).input = s.input := rfl
@[simp] theorem setFirst_turns (s : State) (l : Level) : (s.setFirst l).turns = s.turns := rfl
@[simp] theorem setFirst_tick (s : State) (l : Level) : (s.setFirst l).tick = s.tick := rfl

@[simp] theorem setLastClk_phase (s : State) (l : Level) : (s.setLastClk l).phase = s.phase := rfl
@[simp] theorem setLastClk_first (s : State) (l : Level) : (s.setLastClk l).first = s.first := rfl
@[simp] theorem setLastClk_lastClk (s : State) (l : Level) : (s.setLastClk l).lastClk = some l := rfl
@[simp] theorem setLastClk_lastMode (s : State) (l : Level) : (s.setLastClk l).lastMode = s.lastMode := rfl
@[simp] theorem setLastClk_lastData (s : State) (l : Level) : (s.setLastClk l).lastData = s.lastData := rfl
@[simp] theorem setLastClk_todo (s : State) (l : Level) : (s.setLastClk l).todo = s.todo := rfl
@[simp] theorem setLastClk_held (s : State) (l : Level) : (s.setLastClk l).held = s.held := rfl
@[simp] theorem setLastClk_mapped (s : State) (l : Level) : (s.setLastClk l).mapped = s.mapped := rfl
@[simp] theorem setLastClk_pos (s : State) (l : Level) : (s.setLastClk l).pos = s.pos := rfl
@[simp] theorem setLastClk_out (s : State) (l : Level) : (s.setLastClk l).out = s.out := rfl
@[simp] theorem setLastClk_diag (s : State) (l : Level) : (s.setLastClk l).diag = s.diag := rfl
@[simp] theorem setLastClk_regLog (s : State) (l : Level) : (s.setLastClk l).regLog = s.regLog := rfl
@[simp] theorem setLastClk_life (s : State) (l : Level) : (s.setLastClk l).life = s.life := rfl
@[simp] theorem setLastClk_mapLog (s : State) (l : Level) : (s.setLastClk l).mapLog = s.mapLog := rfl
@[simp] theorem setLastClk_killed (s : State) (l : Level) : (s.setLastClk l).killed = s.killed := rfl
@[simp] theorem setLastClk_reg (s : State) (l : Level) : (s.setLastClk l).reg = s.reg := rfl
@[simp] theorem setLastClk_input (s : State) (l : Level) : (s.setLastClk l).input = s.input := rfl
@[simp] theorem setLastClk_turns (s : State) (l : Level) : (s.setLastClk l).turns = s.turns := rfl
@[simp] theorem setLastClk_tick (s : State) (l : Level) : (s.setLastClk l).tick = s.tick := rfl

@[simp] theorem setLastMode_phase (s : State) (l : Level) : (s.setLastMode l).phase = s.phase := rfl
@[simp] theorem setLastMode_first (s : State) (l : Level) : (s.setLastMode l).first = s.first := rfl
@[simp] theorem setLastMode_lastClk (s : State) (l : Level) : (s.setLastMode l).lastClk = s.lastClk := rfl
@[simp] theorem setLastMode_lastMode (s : State) (l : Level) : (s.setLastMode l).lastMode = some l := rfl
@[simp] theorem setLastMode_lastData (s : State) (l : Level) : (s.setLastMode l).lastData = s.lastData := rfl
@[simp] theorem setLastMode_todo (s : State) (l : Level) : (s.setLastMode l).todo = s.todo := rfl
@[simp] theorem setLastMode_held (s : State) (l : Level) : (s.setLastMode l).held = s.held := rfl
@[simp] theorem setLastMode_mapped (s : State) (l : Level) : (s.setLastMode l).mapped = s.mapped := rfl
@[simp] theorem setLastMode_pos (s : State) (l : Level) : (s.setLastMode l).pos = s.pos := rfl
@[simp] theorem setLastMode_out (s : State) (l : Level) : (s.setLastMode l).out = s.out := rfl
@[simp] theorem setLastMode_diag (s : State) (l : Level) : (s.setLastMode l).diag = s.diag := rfl
@[simp] theorem setLastMode_regLog (s : State) (l : Level) : (s.setLastMode l).regLog = s.regLog := rfl
@[simp] theorem setLastMode_life (s : State) (l : Level) : (s.setLastMode l).life = s.life := rfl
@[simp] theorem setLastMode_mapLog (s : State) (l : Level) : (s.setLastMode l).mapLog = s.mapLog := rfl
@[simp] theorem setLastMode_killed (s : State) (l : Level) : (s.setLastMode l).killed = s.killed := rfl
@[simp] theorem setLastMode_reg (s : State) (l : Level) : (s.setLastMode l).reg = s.reg := rfl
@[simp] theorem setLastMode_input (s : State) (l : Level) : (s.setLastMode l).input = s.input := rfl
@[simp] theorem setLastMode_turns (s : State) (l : Level) : (s.setLastMode l).turns = s.turns := rfl
@[simp] theorem setLastMode_tick (s : State) (l : Level) : (s.setLastMode l).tick = s.tick := rfl

@[simp] theorem setLastData_phase (s : State) (l : Level) : (s.setLastData l).phase = s.phase := rfl
@[simp] theorem setLastData_first (s : State) (l : Level) : (s.setLastData l).first = s.first := rfl
@[simp] theorem setLastData_lastClk (s : State) (l : Level) : (s.setLastData l).lastClk = s.lastClk := rfl
@[simp] theorem setLastData_lastMode (s : State) (l : Level) : (s.setLastData l).lastMode = s.lastMode := rfl
@[simp] theorem setLastData_lastData (s : State) (l : Level) : (s.setLastData l).lastData = some l := rfl
@[simp] theorem setLastData_todo (s : State) (l : Level) : (s.setLastData l).todo = s.todo := rfl
@[simp] theorem setLastData_held (s : State) (l : Level) : (s.setLastData l).held = s.held := rfl
@[simp] theorem setLastData_mapped (s : State) (l : Level) : (s.setLastData l).mapped = s.mapped := rfl
@[simp] theorem setLastData_pos (s : State) (l : Level) : (s.setLastData l).pos = s.pos := rfl
@[simp] theorem setLastData_out (s : State) (l : Level) : (s.setLastData l).out = s.out := rfl
@[simp] theorem setLastData_diag (s : State) (l : Level) : (s.setLastData l).diag = s.diag := rfl
@[simp] theorem setLastData_regLog (s : State) (l : Level) : (s.setLastData l).regLog = s.regLog := rfl
@[simp] theorem setLastData_life (s : State) (l : Level) : (s.setLastData l).life = s.life := rfl
@[simp] theorem setLastData_mapLog (s : State) (l : Level) : (s.setLastData l).mapLog = s.mapLog := rfl
@[simp] theorem setLastData_killed (s : State) (l : Level) : (s.setLastData l).killed = s.killed := rfl
@[simp] theorem setLastData_reg (s : State) (l : Level) : (s.setLastData l).reg = s.reg := rfl
@[simp] theorem setLastData_input (s : State) (l : Level) : (s.setLastData l).input = s.input := rfl
@[simp] theorem setLastData_turns (s : State) (l : Level) : (s.setLastData l).turns = s.turns := rfl
@[simp] theorem setLastData_tick (s : State) (l : Level) : (s.setLastData l).tick = s.tick := rfl

@[simp] theorem setTodo_phase (s : State) (ops : List MicroOp) : (s.setTodo ops).phase = s.phase := rfl
@[simp] theorem setTodo_first (s : State) (ops : List MicroOp) : (s.setTodo ops).first = s.first := rfl
@[simp] theorem setTodo_lastClk (s : State) (ops : List MicroOp) : (s.setTodo ops).lastClk = s.lastClk := rfl
@[simp] theorem setTodo_lastMode (s : State) (ops : List MicroOp) : (s.setTodo ops).lastMode = s.lastMode := rfl
@[simp] theorem setTodo_lastData (s : State) (ops : List MicroOp) : (s.setTodo ops).lastData = s.lastData := rfl
@[simp] theorem setTodo_todo (s : State) (ops : List MicroOp) : (s.setTodo ops).todo = ops := rfl
@[simp] theorem setTodo_held (s : State) (ops : List MicroOp) : (s.setTodo ops).held = s.held := rfl
@[simp] theorem setTodo_mapped (s : State) (ops : List MicroOp) : (s.setTodo ops).mapped = s.mapped := rfl
@[simp] theorem setTodo_pos (s : State) (ops : List MicroOp) : (s.setTodo ops).pos = s.pos := rfl
@[simp] theorem setTodo_out (s : State) (ops : List MicroOp) : (s.setTodo ops).out = s.out := rfl
@[simp] theorem setTodo_diag (s : State) (ops : List MicroOp) : (s.setTodo ops).diag = s.diag := rfl
@[simp] theorem setTodo_regLog (s : State) (ops : List MicroOp) : (s.setTodo ops).regLog = s.regLog := rfl
@[simp] theorem setTodo_life (s : State) (ops : List MicroOp) : (s.setTodo ops).life = s.life := rfl
@[simp] theorem setTodo_mapLog (s : State) (ops : List MicroOp) : (s.setTodo ops).mapLog = s.mapLog := rfl
@[simp] theorem setTodo_killed (s : State) (ops : List MicroOp) : (s.setTodo ops).killed = s.killed := rfl
@[simp] theorem setTodo_reg (s : State) (ops : List MicroOp) : (s.setTodo ops).reg = s.reg := rfl
@[simp] theorem setTodo_input (s : State) (ops : List MicroOp) : (s.setTodo ops).input = s.input := rfl
@[simp] theorem setTodo_turns (s : State) (ops : List MicroOp) : (s.setTodo ops).turns = s.turns := rfl
@[simp] theorem setTodo_tick (s : State) (ops : List MicroOp) : (s.setTodo ops).tick = s.tick := rfl

@[simp] theorem setHeld_phase (s : State) (h : Option Word) : (s.setHeld h).phase = s.phase := rfl
@[simp] theorem setHeld_first (s : State) (h : Option Word) : (s.setHeld h).first = s.first := rfl
@[simp] theorem setHeld_lastClk (s : State) (h : Option Word) : (s.setHeld h).lastClk = s.lastClk := rfl
@[simp] theorem setHeld_lastMode (s : State) (h : Option Word) : (s.setHeld h).lastMode = s.lastMode := rfl
@[simp] theorem setHeld_lastData (s : State) (h : Option Word) : (s.setHeld h).lastData = s.lastData := rfl
@[simp] theorem setHeld_todo (s : State) (h : Option Word) : (s.setHeld h).todo = s.todo := rfl
@[simp] theorem setHeld_held (s : State) (h : Option Word) : (s.setHeld h).held = h := rfl
@[simp] theorem setHeld_mapped (s : State) (h : Option Word) : (s.setHeld h).mapped = s.mapped := rfl
@[simp] theorem setHeld_pos (s : State) (h : Option Word) : (s.setHeld h).pos = s.pos := rfl
@[simp] theorem setHeld_out (s : State) (h : Option Word) : (s.setHeld h).out = s.out := rfl
@[simp] theorem setHeld_diag (s : State) (h : Option Word) : (s.setHeld h).diag = s.diag := rfl
@[simp] theorem setHeld_regLog (s : State) (h : Option Word) : (s.setHeld h).regLog = s.regLog := rfl
@[simp] theorem setHeld_life (s : State) (h : Option Word) : (s.setHeld h).life = s.life := rfl
@[simp] theorem setHeld_mapLog (s : State) (h : Option Word) : (s.setHeld h).mapLog = s.mapLog := rfl
@[simp] theorem setHeld_killed (s : State) (h : Option Word) : (s.setHeld h).killed = s.killed := rfl
@[simp] theorem setHeld_reg (s : State) (h : Option Word) : (s.setHeld h).reg = s.reg := rfl
@[simp] theorem setHeld_input (s : State) (h : Option Word) : (s.setHeld h).input = s.input := rfl
@[simp] theorem setHeld_turns (s : State) (h : Option Word) : (s.setHeld h).turns = s.turns := rfl
@[simp] theorem setHeld_tick (s : State) (h : Option Word) : (s.setHeld h).tick = s.tick := rfl

@[simp] theorem setMapped_phase (s : State) (m : Level) : (s.setMapped m).phase = s.phase := rfl
@[simp] theorem setMapped_first (s : State) (m : Level) : (s.setMapped m).first = s.first := rfl
@[simp] theorem setMapped_lastClk (s : State) (m : Level) : (s.setMapped m).lastClk = s.lastClk := rfl
@[simp] theorem setMapped_lastMode (s : State) (m : Level) : (s.setMapped m).lastMode = s.lastMode := rfl
@[simp] theorem setMapped_lastData (s : State) (m : Level) : (s.setMapped m).lastData = s.lastData := rfl
@[simp] theorem setMapped_todo (s : State) (m : Level) : (s.setMapped m).todo = s.todo := rfl
@[simp] theorem setMapped_held (s : State) (m : Level) : (s.setMapped m).held = s.held := rfl
@[simp] theorem setMapped_mapped (s : State) (m : Level) : (s.setMapped m).mapped = m := rfl
@[simp] theorem setMapped_pos (s : State) (m : Level) : (s.setMapped m).pos = s.pos := rfl
@[simp] theorem setMapped_out (s : State) (m : Level) : (s.setMapped m).out = s.out := rfl
@[simp] theorem setMapped_diag (s : State) (m : Level) : (s.setMapped m).diag = s.diag := rfl
@[simp] theorem setMapped_regLog (s : State) (m : Level) : (s.setMapped m).regLog = s.regLog := rfl
@[simp] theorem setMapped_life (s : State) (m : Level) : (s.setMapped m).life = s.life := rfl
@[simp] theorem setMapped_mapLog (s : State) (m : Level) : (s.setMapped m).mapLog = s.mapLog := rfl
@[simp] theorem setMapped_killed (s : State) (m : Level) : (s.setMapped m).killed = s.killed := rfl
@[simp] theorem setMapped_reg (s : State) (m : Level) : (s.setMapped m).reg = s.reg := rfl
@[simp] theorem setMapped_input (s : State) (m : Level) : (s.setMapped m).input = s.input := rfl
@[simp] theorem setMapped_turns (s : State) (m : Level) : (s.setMapped m).turns = s.turns := rfl
@[simp] theorem setMapped_tick (s : State) (m : Level) : (s.setMapped m).tick = s.tick := rfl

@[simp] theorem pushOut_phase (s : State) (b : Byte) : (s.pushOut b).phase = s.phase := rfl
@[simp] theorem pushOut_first (s : State) (b : Byte) : (s.pushOut b).first = s.first := rfl
@[simp] theorem pushOut_lastClk (s : State) (b : Byte) : (s.pushOut b).lastClk = s.lastClk := rfl
@[simp] theorem pushOut_lastMode (s : State) (b : Byte) : (s.pushOut b).lastMode = s.lastMode := rfl
@[simp] theorem pushOut_lastData (s : State) (b : Byte) : (s.pushOut b).lastData = s.lastData := rfl
@[simp] theorem pushOut_todo (s : State) (b : Byte) : (s.pushOut b).todo = s.todo := rfl
@[simp] theorem pushOut_held (s : State) (b : Byte) : (s.pushOut b).held = s.held := rfl
@[simp] theorem pushOut_mapped (s : State) (b : Byte) : (s.pushOut b).mapped = s.mapped := rfl
@[simp] theorem pushOut_pos (s : State) (b : Byte) : (s.pushOut b).pos = s.pos := rfl
@[simp] theorem pushOut_out (s : State) (b : Byte) : (s.pushOut b).out = s.out ++ [b] := rfl
@[simp] theorem pushOut_diag (s : State) (b : Byte) : (s.pushOut b).diag = s.diag := rfl
@[simp] theorem pushOut_regLog (s : State) (b : Byte) : (s.pushOut b).regLog = s.regLog := rfl
@[simp] theorem pushOut_life (s : State) (b : Byte) : (s.pushOut b).life = s.life := rfl
@[simp] theorem pushOut_mapLog (s : State) (b : Byte) : (s.pushOut b).mapLog = s.mapLog := rfl
@[simp] theorem pushOut_killed (s : State) (b : Byte) : (s.pushOut b).killed = s.killed := rfl
@[simp] theorem pushOut_reg (s : State) (b : Byte) : (s.pushOut b).reg = s.reg := rfl
@[simp] theorem pushOut_input (s : State) (b : Byte) : (s.pushOut b).input = s.input := rfl
@[simp] theorem pushOut_turns (s : State) (b : Byte) : (s.pushOut b).turns = s.turns := rfl
@[simp] theorem pushOut_tick (s : State) (b : Byte) : (s.pushOut b).tick = s.tick := rfl

@[simp] theorem pushDiag_phase (s : State) (e : DiagEvent) : (s.pushDiag e).phase = s.phase := rfl
@[simp] theorem pushDiag_first (s : State) (e : DiagEvent) : (s.pushDiag e).first = s.first := rfl
@[simp] theorem pushDiag_lastClk (s : State) (e : DiagEvent) : (s.pushDiag e).lastClk = s.lastClk := rfl
@[simp] theorem pushDiag_lastMode (s : State) (e : DiagEvent) : (s.pushDiag e).lastMode = s.lastMode := rfl
@[simp] theorem pushDiag_lastData (s : State) (e : DiagEvent) : (s.pushDiag e).lastData = s.lastData := rfl
@[simp] theorem pushDiag_todo (s : State) (e : DiagEvent) : (s.pushDiag e).todo = s.todo := rfl
@[simp] theorem pushDiag_held (s : State) (e : DiagEvent) : (s.pushDiag e).held = s.held := rfl
@[simp] theorem pushDiag_mapped (s : State) (e : DiagEvent) : (s.pushDiag e).mapped = s.mapped := rfl
@[simp] theorem pushDiag_pos (s : State) (e : DiagEvent) : (s.pushDiag e).pos = s.pos := rfl
@[simp] theorem pushDiag_out (s : State) (e : DiagEvent) : (s.pushDiag e).out = s.out := rfl
@[simp] theorem pushDiag_diag (s : State) (e : DiagEvent) : (s.pushDiag e).diag = s.diag ++ [e] := rfl
@[simp] theorem pushDiag_regLog (s : State) (e : DiagEvent) : (s.pushDiag e).regLog = s.regLog := rfl
@[simp] theorem pushDiag_life (s : State) (e : DiagEvent) : (s.pushDiag e).life = s.life := rfl
@[simp] theorem pushDiag_mapLog (s : State) (e : DiagEvent) : (s.pushDiag e).mapLog = s.mapLog := rfl
@[simp] theorem pushDiag_killed (s : State) (e : DiagEvent) : (s.pushDiag e).killed = s.killed := rfl
@[simp] theorem pushDiag_reg (s : State) (e : DiagEvent) : (s.pushDiag e).reg = s.reg := rfl
@[simp] theorem pushDiag_input (s : State) (e : DiagEvent) : (s.pushDiag e).input = s.input := rfl
@[simp] theorem pushDiag_turns (s : State) (e : DiagEvent) : (s.pushDiag e).turns = s.turns := rfl
@[simp] theorem pushDiag_tick (s : State) (e : DiagEvent) : (s.pushDiag e).tick = s.tick := rfl

@[simp] theorem pushReg_phase (s : State) (e : RegEvent) : (s.pushReg e).phase = s.phase := rfl
@[simp] theorem pushReg_first (s : State) (e : RegEvent) : (s.pushReg e).first = s.first := rfl
@[simp] theorem pushReg_lastClk (s : State) (e : RegEvent) : (s.pushReg e).lastClk = s.lastClk := rfl
@[simp] theorem pushReg_lastMode (s : State) (e : RegEvent) : (s.pushReg e).lastMode = s.lastMode := rfl
@[simp] theorem pushReg_lastData (s : State) (e : RegEvent) : (s.pushReg e).lastData = s.lastData := rfl
@[simp] theorem pushReg_todo (s : State) (e : RegEvent) : (s.pushReg e).todo = s.todo := rfl
@[simp] theorem pushReg_held (s : State) (e : RegEvent) : (s.pushReg e).held = s.held := rfl
@[simp] theorem pushReg_mapped (s : State) (e : RegEvent) : (s.pushReg e).mapped = s.mapped := rfl
@[simp] theorem pushReg_pos (s : State) (e : RegEvent) : (s.pushReg e).pos = s.pos := rfl
@[simp] theorem pushReg_out (s : State) (e : RegEvent) : (s.pushReg e).out = s.out := rfl
@[simp] theorem pushReg_diag (s : State) (e : RegEvent) : (s.pushReg e).diag = s.diag := rfl
@[simp] theorem pushReg_regLog (s : State) (e : RegEvent) : (s.pushReg e).regLog = s.regLog ++ [e] := rfl
@[simp] theorem pushReg_life (s : State) (e : RegEvent) : (s.pushReg e).life = s.life := rfl
@[simp] theorem pushReg_mapLog (s : State) (e : RegEvent) : (s.pushReg e).mapLog = s.mapLog := rfl
@[simp] theorem pushReg_killed (s : State) (e : RegEvent) : (s.pushReg e).killed = s.killed := rfl
@[simp] theorem pushReg_reg (s : State) (e : RegEvent) : (s.pushReg e).reg = s.reg := rfl
@[simp] theorem pushReg_input (s : State) (e : RegEvent) : (s.pushReg e).input = s.input := rfl
@[simp] theorem pushReg_turns (s : State) (e : RegEvent) : (s.pushReg e).turns = s.turns := rfl
@[simp] theorem pushReg_tick (s : State) (e : RegEvent) : (s.pushReg e).tick = s.tick := rfl

@[simp] theorem pushMap_phase (s : State) (e : MapEvent) : (s.pushMap e).phase = s.phase := rfl
@[simp] theorem pushMap_first (s : State) (e : MapEvent) : (s.pushMap e).first = s.first := rfl
@[simp] theorem pushMap_lastClk (s : State) (e : MapEvent) : (s.pushMap e).lastClk = s.lastClk := rfl
@[simp] theorem pushMap_lastMode (s : State) (e : MapEvent) : (s.pushMap e).lastMode = s.lastMode := rfl
@[simp] theorem pushMap_lastData (s : State) (e : MapEvent) : (s.pushMap e).lastData = s.lastData := rfl
@[simp] theorem pushMap_todo (s : State) (e : MapEvent) : (s.pushMap e).todo = s.todo := rfl
@[simp] theorem pushMap_held (s : State) (e : MapEvent) : (s.pushMap e).held = s.held := rfl
@[simp] theorem pushMap_mapped (s : State) (e : MapEvent) : (s.pushMap e).mapped = s.mapped := rfl
@[simp] theorem pushMap_pos (s : State) (e : MapEvent) : (s.pushMap e).pos = s.pos := rfl
@[simp] theorem pushMap_out (s : State) (e : MapEvent) : (s.pushMap e).out = s.out := rfl
@[simp] theorem pushMap_diag (s : State) (e : MapEvent) : (s.pushMap e).diag = s.diag := rfl
@[simp] theorem pushMap_regLog (s : State) (e : MapEvent) : (s.pushMap e).regLog = s.regLog := rfl
@[simp] theorem pushMap_life (s : State) (e : MapEvent) : (s.pushMap e).life = s.life := rfl
@[simp] theorem pushMap_mapLog (s : State) (e : MapEvent) : (s.pushMap e).mapLog = s.mapLog ++ [e] := rfl
@[simp] theorem pushMap_killed (s : State) (e : MapEvent) : (s.pushMap e).killed = s.killed := rfl
@[simp] theorem pushMap_reg (s : State) (e : MapEvent) : (s.pushMap e).reg = s.reg := rfl
@[simp] theorem pushMap_input (s : State) (e : MapEvent) : (s.pushMap e).input = s.input := rfl
@[simp] theorem pushMap_turns (s : State) (e : MapEvent) : (s.pushMap e).turns = s.turns := rfl
@[simp] theorem pushMap_tick (s : State) (e : MapEvent) : (s.pushMap e).tick = s.tick := rfl

@[simp] theorem setLife_phase (s : State) (ops : List LifeOp) : (s.setLife ops).phase = s.phase := rfl
@[simp] theorem setLife_first (s : State) (ops : List LifeOp) : (s.setLife ops).first = s.first := rfl
@[simp] theorem setLife_lastClk (s : State) (ops : List LifeOp) : (s.setLife ops).lastClk = s.lastClk := rfl
@[simp] theorem setLife_lastMode (s : State) (ops : List LifeOp) : (s.setLife ops).lastMode = s.lastMode := rfl
@[simp] theorem setLife_lastData (s : State) (ops : List LifeOp) : (s.setLife ops).lastData = s.lastData := rfl
@[simp] theorem setLife_todo (s : State) (ops : List LifeOp) : (s.setLife ops).todo = s.todo := rfl
@[simp] theorem setLife_held (s : State) (ops : List LifeOp) : (s.setLife ops).held = s.held := rfl
@[simp] theorem setLife_mapped (s : State) (ops : List LifeOp) : (s.setLife ops).mapped = s.mapped := rfl
@[simp] theorem setLife_pos (s : State) (ops : List LifeOp) : (s.setLife ops).pos = s.pos := rfl
@[simp] theorem setLife_out (s : State) (ops : List LifeOp) : (s.setLife ops).out = s.out := rfl
@[simp] theorem setLife_diag (s : State) (ops : List LifeOp) : (s.setLife ops).diag = s.diag := rfl
@[simp] theorem setLife_regLog (s : State) (ops : List LifeOp) : (s.setLife ops).regLog = s.regLog := rfl
@[simp] theorem setLife_life (s : State) (ops : List LifeOp) : (s.setLife ops).life = ops := rfl
@[simp] theorem setLife_mapLog (s : State) (ops : List LifeOp) : (s.setLife ops).mapLog = s.mapLog := rfl
@[simp] theorem setLife_killed (s : State) (ops : List LifeOp) : (s.setLife ops).killed = s.killed := rfl
@[simp] theorem setLife_reg (s : State) (ops : List LifeOp) : (s.setLife ops).reg = s.reg := rfl
@[simp] theorem setLife_input (s : State) (ops : List LifeOp) : (s.setLife ops).input = s.input := rfl
@[simp] theorem setLife_turns (s : State) (ops : List LifeOp) : (s.setLife ops).turns = s.turns := rfl
@[simp] theorem setLife_tick (s : State) (ops : List LifeOp) : (s.setLife ops).tick = s.tick := rfl

@[simp] theorem setKilled_phase (s : State) : (s.setKilled).phase = s.phase := rfl
@[simp] theorem setKilled_first (s : State) : (s.setKilled).first = s.first := rfl
@[simp] theorem setKilled_lastClk (s : State) : (s.setKilled).lastClk = s.lastClk := rfl
@[simp] theorem setKilled_lastMode (s : State) : (s.setKilled).lastMode = s.lastMode := rfl
@[simp] theorem setKilled_lastData (s : State) : (s.setKilled).lastData = s.lastData := rfl
@[simp] theorem setKilled_todo (s : State) : (s.setKilled).todo = s.todo := rfl
@[simp] theorem setKilled_held (s : State) : (s.setKilled).held = s.held := rfl
@[simp] theorem setKilled_mapped (s : State) : (s.setKilled).mapped = s.mapped := rfl
@[simp] theorem setKilled_pos (s : State) : (s.setKilled).pos = s.pos := rfl
@[simp] theorem setKilled_out (s : State) : (s.setKilled).out = s.out := rfl
@[simp] theorem setKilled_diag (s : State) : (s.setKilled).diag = s.diag := rfl
@[simp] theorem setKilled_regLog (s : State) : (s.setKilled).regLog = s.regLog := rfl
@[simp] theorem setKilled_life (s : State) : (s.setKilled).life = s.life := rfl
@[simp] theorem setKilled_mapLog (s : State) : (s.setKilled).mapLog = s.mapLog := rfl
@[simp] theorem setKilled_killed (s : State) : (s.setKilled).killed = true := rfl
@[simp] theorem setKilled_reg (s : State) : (s.setKilled).reg = s.reg := rfl
@[simp] theorem setKilled_input (s : State) : (s.setKilled).input = s.input := rfl
@[simp] theorem setKilled_turns (s : State) : (s.setKilled).turns = s.turns := rfl
@[simp] theorem setKilled_tick (s : State) : (s.setKilled).tick = s.tick := rfl

@[simp] theorem setEnvReg_phase (s : State) (v : Word) : (s.setEnvReg v).phase = s.phase := rfl
@[simp] theorem setEnvReg_first (s : State) (v : Word) : (s.setEnvReg v).first = s.first := rfl
@[simp] theorem setEnvReg_lastClk (s : State) (v : Word) : (s.setEnvReg v).lastClk = s.lastClk := rfl
@[simp] theorem setEnvReg_lastMode (s : State) (v : Word) : (s.setEnvReg v).lastMode = s.lastMode := rfl
@[simp] theorem setEnvReg_lastData (s : State) (v : Word) : (s.setEnvReg v).lastData = s.lastData := rfl
@[simp] theorem setEnvReg_todo (s : State) (v : Word) : (s.setEnvReg v).todo = s.todo := rfl
@[simp] theorem setEnvReg_held (s : State) (v : Word) : (s.setEnvReg v).held = s.held := rfl
@[simp] theorem setEnvReg_mapped (s : State) (v : Word) : (s.setEnvReg v).mapped = s.mapped := rfl
@[simp] theorem setEnvReg_pos (s : State) (v : Word) : (s.setEnvReg v).pos = s.pos := rfl
@[simp] theorem setEnvReg_out (s : State) (v : Word) : (s.setEnvReg v).out = s.out := rfl
@[simp] theorem setEnvReg_diag (s : State) (v : Word) : (s.setEnvReg v).diag = s.diag := rfl
@[simp] theorem setEnvReg_regLog (s : State) (v : Word) : (s.setEnvReg v).regLog = s.regLog := rfl
@[simp] theorem setEnvReg_life (s : State) (v : Word) : (s.setEnvReg v).life = s.life := rfl
@[simp] theorem setEnvReg_mapLog (s : State) (v : Word) : (s.setEnvReg v).mapLog = s.mapLog := rfl
@[simp] theorem setEnvReg_killed (s : State) (v : Word) : (s.setEnvReg v).killed = s.killed := rfl
@[simp] theorem setEnvReg_reg (s : State) (v : Word) : (s.setEnvReg v).reg = v := rfl
@[simp] theorem setEnvReg_input (s : State) (v : Word) : (s.setEnvReg v).input = s.input := rfl
@[simp] theorem setEnvReg_turns (s : State) (v : Word) : (s.setEnvReg v).turns = s.turns := rfl
@[simp] theorem setEnvReg_tick (s : State) (v : Word) : (s.setEnvReg v).tick = s.tick := rfl

@[simp] theorem consume_phase (s : State) (rest : List InUnit) : (s.consume rest).phase = s.phase := rfl
@[simp] theorem consume_first (s : State) (rest : List InUnit) : (s.consume rest).first = s.first := rfl
@[simp] theorem consume_lastClk (s : State) (rest : List InUnit) : (s.consume rest).lastClk = s.lastClk := rfl
@[simp] theorem consume_lastMode (s : State) (rest : List InUnit) : (s.consume rest).lastMode = s.lastMode := rfl
@[simp] theorem consume_lastData (s : State) (rest : List InUnit) : (s.consume rest).lastData = s.lastData := rfl
@[simp] theorem consume_todo (s : State) (rest : List InUnit) : (s.consume rest).todo = s.todo := rfl
@[simp] theorem consume_held (s : State) (rest : List InUnit) : (s.consume rest).held = s.held := rfl
@[simp] theorem consume_mapped (s : State) (rest : List InUnit) : (s.consume rest).mapped = s.mapped := rfl
@[simp] theorem consume_pos (s : State) (rest : List InUnit) : (s.consume rest).pos = s.pos + 1 := rfl
@[simp] theorem consume_out (s : State) (rest : List InUnit) : (s.consume rest).out = s.out := rfl
@[simp] theorem consume_diag (s : State) (rest : List InUnit) : (s.consume rest).diag = s.diag := rfl
@[simp] theorem consume_regLog (s : State) (rest : List InUnit) : (s.consume rest).regLog = s.regLog := rfl
@[simp] theorem consume_life (s : State) (rest : List InUnit) : (s.consume rest).life = s.life := rfl
@[simp] theorem consume_mapLog (s : State) (rest : List InUnit) : (s.consume rest).mapLog = s.mapLog := rfl
@[simp] theorem consume_killed (s : State) (rest : List InUnit) : (s.consume rest).killed = s.killed := rfl
@[simp] theorem consume_reg (s : State) (rest : List InUnit) : (s.consume rest).reg = s.reg := rfl
@[simp] theorem consume_input (s : State) (rest : List InUnit) : (s.consume rest).input = rest := rfl
@[simp] theorem consume_turns (s : State) (rest : List InUnit) : (s.consume rest).turns = s.turns := rfl
@[simp] theorem consume_tick (s : State) (rest : List InUnit) : (s.consume rest).tick = s.tick := rfl

@[simp] theorem setInput_phase (s : State) (us : List InUnit) : (s.setInput us).phase = s.phase := rfl
@[simp] theorem setInput_first (s : State) (us : List InUnit) : (s.setInput us).first = s.first := rfl
@[simp] theorem setInput_lastClk (s : State) (us : List InUnit) : (s.setInput us).lastClk = s.lastClk := rfl
@[simp] theorem setInput_lastMode (s : State) (us : List InUnit) : (s.setInput us).lastMode = s.lastMode := rfl
@[simp] theorem setInput_lastData (s : State) (us : List InUnit) : (s.setInput us).lastData = s.lastData := rfl
@[simp] theorem setInput_todo (s : State) (us : List InUnit) : (s.setInput us).todo = s.todo := rfl
@[simp] theorem setInput_held (s : State) (us : List InUnit) : (s.setInput us).held = s.held := rfl
@[simp] theorem setInput_mapped (s : State) (us : List InUnit) : (s.setInput us).mapped = s.mapped := rfl
@[simp] theorem setInput_pos (s : State) (us : List InUnit) : (s.setInput us).pos = s.pos := rfl
@[simp] theorem setInput_out (s : State) (us : List InUnit) : (s.setInput us).out = s.out := rfl
@[simp] theorem setInput_diag (s : State) (us : List InUnit) : (s.setInput us).diag = s.diag := rfl
@[simp] theorem setInput_regLog (s : State) (us : List InUnit) : (s.setInput us).regLog = s.regLog := rfl
@[simp] theorem setInput_life (s : State) (us : List InUnit) : (s.setInput us).life = s.life := rfl
@[simp] theorem setInput_mapLog (s : State) (us : List InUnit) : (s.setInput us).mapLog = s.mapLog := rfl
@[simp] theorem setInput_killed (s : State) (us : List InUnit) : (s.setInput us).killed = s.killed := rfl
@[simp] theorem setInput_reg (s : State) (us : List InUnit) : (s.setInput us).reg = s.reg := rfl
@[simp] theorem setInput_input (s : State) (us : List InUnit) : (s.setInput us).input = us := rfl
@[simp] theorem setInput_turns (s : State) (us : List InUnit) : (s.setInput us).turns = s.turns := rfl
@[simp] theorem setInput_tick (s : State) (us : List InUnit) : (s.setInput us).tick = s.tick := rfl

@[simp] theorem setTurns_phase (s : State) (ts : List Turn) : (s.setTurns ts).phase = s.phase := rfl
@[simp] theorem setTurns_first (s : State) (ts : List Turn) : (s.setTurns ts).first = s.first := rfl
@[simp] theorem setTurns_lastClk (s : State) (ts : List Turn) : (s.setTurns ts).lastClk = s.lastClk := rfl
@[simp] theorem setTurns_lastMode (s : State) (ts : List Turn) : (s.setTurns ts).lastMode = s.lastMode := rfl
@[simp] theorem setTurns_lastData (s : State) (ts : List Turn) : (s.setTurns ts).lastData = s.lastData := rfl
@[simp] theorem setTurns_todo (s : State) (ts : List Turn) : (s.setTurns ts).todo = s.todo := rfl
@[simp] theorem setTurns_held (s : State) (ts : List Turn) : (s.setTurns ts).held = s.held := rfl
@[simp] theorem setTurns_mapped (s : State) (ts : List Turn) : (s.setTurns ts).mapped = s.mapped := rfl
@[simp] theorem setTurns_pos (s : State) (ts : List Turn) : (s.setTurns ts).pos = s.pos := rfl
@[simp] theorem setTurns_out (s : State) (ts : List Turn) : (s.setTurns ts).out = s.out := rfl
@[simp] theorem setTurns_diag (s : State) (ts : List Turn) : (s.setTurns ts).diag = s.diag := rfl
@[simp] theorem setTurns_regLog (s : State) (ts : List Turn) : (s.setTurns ts).regLog = s.regLog := rfl
@[simp] theorem setTurns_life (s : State) (ts : List Turn) : (s.setTurns ts).life = s.life := rfl
@[simp] theorem setTurns_mapLog (s : State) (ts : List Turn) : (s.setTurns ts).mapLog = s.mapLog := rfl
@[simp] theorem setTurns_killed (s : State) (ts : List Turn) : (s.setTurns ts).killed = s.killed := rfl
@[simp] theorem setTurns_reg (s : State) (ts : List Turn) : (s.setTurns ts).reg = s.reg := rfl
@[simp] theorem setTurns_input (s : State) (ts : List Turn) : (s.setTurns ts).input = s.input := rfl
@[simp] theorem setTurns_turns (s : State) (ts : List Turn) : (s.setTurns ts).turns = ts := rfl
@[simp] theorem setTurns_tick (s : State) (ts : List Turn) : (s.setTurns ts).tick = s.tick := rfl

@[simp] theorem setTick_phase (s : State) (n : Nat) : (s.setTick n).phase = s.phase := rfl
@[simp] theorem setTick_first (s : State) (n : Nat) : (s.setTick n).first = s.first := rfl
@[simp] theorem setTick_lastClk (s : State) (n : Nat) : (s.setTick n).lastClk = s.lastClk := rfl
@[simp] theorem setTick_lastMode (s : State) (n : Nat) : (s.setTick n).lastMode = s.lastMode := rfl
@[simp] theorem setTick_lastData (s : State) (n : Nat) : (s.setTick n).lastData = s.lastData := rfl
@[simp] theorem setTick_todo (s : State) (n : Nat) : (s.setTick n).todo = s.todo := rfl
@[simp] theorem setTick_held (s : State) (n : Nat) : (s.setTick n).held = s.held := rfl
@[simp] theorem setTick_mapped (s : State) (n : Nat) : (s.setTick n).mapped = s.mapped := rfl
@[simp] theorem setTick_pos (s : State) (n : Nat) : (s.setTick n).pos = s.pos := rfl
@[simp] theorem setTick_out (s : State) (n : Nat) : (s.setTick n).out = s.out := rfl
@[simp] theorem setTick_diag (s : State) (n : Nat) : (s.setTick n).diag = s.diag := rfl
@[simp] theorem setTick_regLog (s : State) (n : Nat) : (s.setTick n).regLog = s.regLog := rfl
@[simp] theorem setTick_life (s : State) (n : Nat) : (s.setTick n).life = s.life := rfl
@[simp] theorem setTick_mapLog (s : State) (n : Nat) : (s.setTick n).mapLog = s.mapLog := rfl
@[simp] theorem setTick_killed (s : State) (n : Nat) : (s.setTick n).killed = s.killed := rfl
@[simp] theorem setTick_reg (s : State) (n : Nat) : (s.setTick n).reg = s.reg := rfl
@[simp] theorem setTick_input (s : State) (n : Nat) : (s.setTick n).input = s.input := rfl
@[simp] theorem setTick_turns (s : State) (n : Nat) : (s.setTick n).turns = s.turns := rfl
@[simp] theorem setTick_tick (s : State) (n : Nat) : (s.setTick n).tick = n := rfl

end Sys2Proof.Machine.State
end

