-- ==== Sys2Proof/Laws/Ops.lean ====
section
/-! SUPPORT. What each shared operation can do, said once. -/

namespace Sys2Proof.Machine

/-! ### The register port -/

/-- `RegRead()` answers exactly while the register is mapped, with the present word. -/
theorem regRead_ok_iff {s : State} {v : Word} {t : State} :
    regRead s = .ok (v, t) ↔ s.mapped = true ∧ v = s.reg ∧ t = s.pushReg (.rd s.reg) := by
  unfold regRead memRead
  by_cases h : s.mapped = true <;> simp [h]
  constructor
  · rintro ⟨rfl, rfl⟩; exact ⟨rfl, rfl⟩
  · rintro ⟨rfl, rfl⟩; exact ⟨rfl, rfl⟩

@[simp] theorem regRead_mapped {s : State} (h : s.mapped = true) :
    regRead s = .ok (s.reg, s.pushReg (.rd s.reg)) := regRead_ok_iff.2 ⟨h, rfl, rfl⟩

/-- `RegWrite(v)` answers exactly while the register is mapped. -/
theorem regWrite_ok_iff {v : Word} {s t : State} :
    regWrite v s = .ok t ↔
      s.mapped = true ∧ t = (s.setEnvReg (writeEffect s.reg v)).pushReg (.wr v) := by
  unfold regWrite memWrite
  by_cases h : s.mapped = true <;> simp [h]
  exact ⟨fun h => h.symm, fun h => h.symm⟩

@[simp] theorem regWrite_mapped {v : Word} {s : State} (h : s.mapped = true) :
    regWrite v s = .ok ((s.setEnvReg (writeEffect s.reg v)).pushReg (.wr v)) :=
  regWrite_ok_iff.2 ⟨h, rfl⟩

/-! ### Driver State -/

/-- What `commitLine` leaves alone, and what it writes. -/
theorem commitLine_eq (s : State) (line : Line) (l : Level) :
    commitLine s line l =
      { s with
        lastMode := if line = .mode then some l else s.lastMode
        lastData := if line = .data then some l else s.lastData
        lastClk := if line = .clock then some l else s.lastClk } := by
  cases line <;> rfl

/-! ### Micro-operations -/

/-- Everything one micro-operation can do when it answers. -/
theorem runOp_cases {op : MicroOp} {rest : List MicroOp} {s t : State}
    (h : runOp op rest s = .ok t) :
    (∃ line l, op = .rd line l ∧ s.mapped = true ∧
      t = ((s.pushReg (.rd s.reg)).setHeld (some s.reg)).setTodo rest) ∨
    (∃ line l v, op = .wr line l ∧ s.held = some v ∧ s.mapped = true ∧
      t = (commitLine (((s.setEnvReg (writeEffect s.reg (insertBit (bitOf line) l v))).pushReg
        (.wr (insertBit (bitOf line) l v))).setHeld none) line l).setTodo rest) ∨
    (∃ e, op = .poll e ∧ s.mapped = true ∧ bitAt s.reg Config.bClockAck = e ∧
      t = (s.pushReg (.rd s.reg)).setTodo rest) ∨
    (∃ e, op = .poll e ∧ s.mapped = true ∧ bitAt s.reg Config.bClockAck ≠ e ∧
      t = s.pushReg (.rd s.reg)) ∨
    (op = .fin ∧ t = (s.setFirst false).setTodo rest) ∨
    (op = .sample ∧ s.mapped = true ∧
      t = ((s.pushReg (.rd s.reg)).setHeld (some s.reg)).setTodo rest) ∨
    (∃ v, op = .emit ∧ s.held = some v ∧
      t = ((s.pushOut (symbol (bitAt v Config.bDataOut))).setHeld none).setTodo rest) ∨
    (∃ b, op = .diagu b ∧ t = (s.pushDiag (.unknownCmd b)).setTodo rest) := by
  cases op with
  | rd line l =>
    simp only [runOp] at h
    split at h <;> simp at h
    rename_i v s' hr
    obtain ⟨hm, rfl, rfl⟩ := regRead_ok_iff.1 hr
    exact .inl ⟨line, l, rfl, hm, h.symm⟩
  | wr line l =>
    simp only [runOp] at h
    split at h
    · rename_i v hv
      split at h <;> simp at h
      rename_i s' hr
      obtain ⟨hm, rfl⟩ := regWrite_ok_iff.1 hr
      exact .inr (.inl ⟨line, l, v, rfl, hv, hm, h.symm⟩)
    · cases h
  | poll e =>
    simp only [runOp] at h
    split at h <;> simp only [Except.ok.injEq, reduceCtorEq] at h
    rename_i v s' hr
    obtain ⟨hm, rfl, rfl⟩ := regRead_ok_iff.1 hr
    split at h
    · rename_i hb; exact .inr (.inr (.inl ⟨e, rfl, hm, hb, h.symm⟩))
    · rename_i hb; exact .inr (.inr (.inr (.inl ⟨e, rfl, hm, hb, h.symm⟩)))
  | fin => simp [runOp] at h; simp [h.symm]
  | sample =>
    simp only [runOp] at h
    split at h <;> simp at h
    rename_i v s' hr
    obtain ⟨hm, rfl, rfl⟩ := regRead_ok_iff.1 hr
    simp [hm, h.symm]
  | emit =>
    simp only [runOp] at h
    split at h <;> simp at h
    rename_i v hv
    simp [hv, h.symm]
  | diagu b => simp [runOp, raiseEvent] at h; simp [h.symm]

/-- `settle` changes the phase when nothing is left to do, and nothing else. -/
theorem settle_eq (after : Phase) (s : State) :
    settle after s = s.setPhase (if s.todo = [] then after else s.phase) := by
  unfold settle
  split <;> rename_i h <;> simp [h]
  rfl

/-- Everything one block step over `todo` can do when it answers. -/
theorem runTodo_cases {after : Phase} {s t : State} (h : runTodo after s = .next t) :
    (s.todo = [] ∧ t = s.setPhase after) ∨
    (∃ op rest s', s.todo = op :: rest ∧ runOp op rest s = .ok s' ∧ t = settle after s') := by
  unfold runTodo at h
  split at h
  · rename_i hs; simp at h; exact .inl ⟨hs, h.symm⟩
  · rename_i op rest hs
    split at h <;> simp at h
    rename_i s' hr
    exact .inr ⟨op, rest, s', hs, hr, h.symm⟩

/-- `runTodo` answers a next state whenever its head micro-operation does. -/
theorem runTodo_cons {after : Phase} {s s' : State} {op : MicroOp} {rest : List MicroOp}
    (hs : s.todo = op :: rest) (h : runOp op rest s = .ok s') :
    runTodo after s = .next (settle after s') := by
  unfold runTodo; simp [hs, h]

/-- The dispatch of a command sets its phase and its micro-operations, and nothing else. -/
theorem dispatch_eq (cmd : Cmd) (ops : List MicroOp) (after : Phase) (s : State) :
    dispatch cmd ops after s =
      (s.setTodo ops).setPhase (if ops = [] then after else .exec cmd) := by
  simp only [dispatch, settle_eq, State.setTodo_todo, State.setTodo_phase, State.setPhase_phase]
  rfl

/-- Everything a command's meaning can do when it answers: its dispatch in FETCH, or its next
micro-operation in EXEC of the same command. -/
theorem perform_cases {cmd : Cmd} {ops : List MicroOp} {after : Phase} {s t : State}
    (h : perform cmd ops after s = .next t) :
    (s.phase = .fetch ∧ t = dispatch cmd ops after s) ∨
    (s.phase = .exec cmd ∧ runTodo after s = .next t) := by
  unfold perform at h
  split at h <;> rename_i hp <;> try simp only [reduceCtorEq] at h
  · simp at h; exact .inl ⟨hp, h.symm⟩
  · split at h
    · rename_i hc; subst hc; exact .inr ⟨hp, h⟩
    · simp at h

@[simp] theorem perform_fetch {cmd : Cmd} {ops : List MicroOp} {after : Phase} {s : State}
    (h : s.phase = .fetch) : perform cmd ops after s = .next (dispatch cmd ops after s) := by
  unfold perform; simp [h]

@[simp] theorem perform_exec {cmd : Cmd} {ops : List MicroOp} {after : Phase} {s : State}
    (h : s.phase = .exec cmd) : perform cmd ops after s = runTodo after s := by
  unfold perform; simp [h]

end Sys2Proof.Machine
end

