-- ==== Sys2Proof/Laws/Step.lean ====
section
/-! SUPPORT. What the outside world's turn and one step of the machine can do, said once. -/

namespace Sys2Proof.Machine

/-! ### The outside world's turn -/

/-- A turn writes the register's environment bits, the host's offers, the turns and the index. -/
theorem worldMove_eq (s : State) :
    worldMove s = { s with
      reg := envMove s.reg (nextTurn s).env
      input := s.input ++ (nextTurn s).offer.toList
      turns := s.turns.tail
      tick := s.tick + 1 } := rfl

@[simp] theorem worldMove_phase (s : State) : (worldMove s).phase = s.phase := rfl
@[simp] theorem worldMove_first (s : State) : (worldMove s).first = s.first := rfl
@[simp] theorem worldMove_lastClk (s : State) : (worldMove s).lastClk = s.lastClk := rfl
@[simp] theorem worldMove_lastMode (s : State) : (worldMove s).lastMode = s.lastMode := rfl
@[simp] theorem worldMove_lastData (s : State) : (worldMove s).lastData = s.lastData := rfl
@[simp] theorem worldMove_todo (s : State) : (worldMove s).todo = s.todo := rfl
@[simp] theorem worldMove_held (s : State) : (worldMove s).held = s.held := rfl
@[simp] theorem worldMove_mapped (s : State) : (worldMove s).mapped = s.mapped := rfl
@[simp] theorem worldMove_pos (s : State) : (worldMove s).pos = s.pos := rfl
@[simp] theorem worldMove_out (s : State) : (worldMove s).out = s.out := rfl
@[simp] theorem worldMove_diag (s : State) : (worldMove s).diag = s.diag := rfl
@[simp] theorem worldMove_regLog (s : State) : (worldMove s).regLog = s.regLog := rfl
@[simp] theorem worldMove_life (s : State) : (worldMove s).life = s.life := rfl
@[simp] theorem worldMove_mapLog (s : State) : (worldMove s).mapLog = s.mapLog := rfl
@[simp] theorem worldMove_killed (s : State) : (worldMove s).killed = s.killed := rfl
@[simp] theorem worldMove_turns (s : State) : (worldMove s).turns = s.turns.tail := rfl
@[simp] theorem worldMove_tick (s : State) : (worldMove s).tick = s.tick + 1 := rfl
@[simp] theorem worldMove_input (s : State) :
    (worldMove s).input = s.input ++ (nextTurn s).offer.toList := rfl
@[simp] theorem worldMove_reg (s : State) :
    (worldMove s).reg = envMove s.reg (nextTurn s).env := rfl

/-! ### One step -/

/-- The session is not over exactly while the block is neither exited nor terminated. -/
theorem ended_none_iff {s : State} :
    ended s = none ↔ s.killed = false ∧ ∀ st, s.phase ≠ .exited st := by
  unfold ended
  cases s.killed <;> cases s.phase <;> simp

/-- While the block takes its step, `step` is the phase's step after the turn. -/
theorem step_eq_blockStep {s : State} (h : TakesStep s) :
    step s = blockStep (nextTurn s) (worldMove s) := by
  unfold step machineStep; simp [h.1, h.2]

/-- Everything one step of the machine can do when it answers: the host terminates the block, or the
block takes the step of its phase. -/
theorem step_cases {s t : State} (h : step s = .next t) :
    (ended s = none ∧ (nextTurn s).kill = true ∧ t = (worldMove s).setKilled) ∨
    (TakesStep s ∧ blockStep (nextTurn s) (worldMove s) = .next t) := by
  unfold step machineStep at h
  split at h
  · cases h
  · rename_i he
    split at h
    · rename_i hk; simp at h; exact .inl ⟨he, hk, h.symm⟩
    · rename_i hk; exact .inr ⟨⟨he, by simpa using hk⟩, h⟩

/-- Everything a decoded command can do: one of the meanings' frames with its own expansion. -/
theorem execCmd_eq (cmd : Cmd) (s : State) :
    ∃ ops after, execCmd cmd s = perform cmd ops after s ∧
      ((∃ c m d, cmd = .instr (.write c m d) ∧ ops = expandWrite c m d s ∧ after = .fetch) ∨
       (cmd = .instr .read ∧ ops = [.sample, .emit] ∧ after = .fetch) ∨
       (∃ b, cmd = .invalid b ∧ ops = [.diagu b] ∧ after = .fetch) ∨
       ((cmd = .instr .quit ∨ cmd = .eos) ∧ ops = [] ∧ after = .stop) ∨
       ((cmd = .instr .blinkUpper ∨ cmd = .instr .blinkLower ∨ cmd = .instr .resetR ∨
         cmd = .instr .resetR1 ∨ cmd = .instr .resetR2 ∨ cmd = .instr .resetR3) ∧
         ops = [] ∧ after = .fetch)) := by
  cases cmd with
  | instr i =>
    cases i with
    | write c m d => exact ⟨_, _, rfl, .inl ⟨c, m, d, rfl, rfl, rfl⟩⟩
    | read => exact ⟨_, _, rfl, by simp⟩
    | quit => exact ⟨_, _, rfl, by simp⟩
    | blinkUpper => exact ⟨_, _, rfl, by simp⟩
    | blinkLower => exact ⟨_, _, rfl, by simp⟩
    | resetR => exact ⟨_, _, rfl, by simp⟩
    | resetR1 => exact ⟨_, _, rfl, by simp⟩
    | resetR2 => exact ⟨_, _, rfl, by simp⟩
    | resetR3 => exact ⟨_, _, rfl, by simp⟩
  | invalid b => exact ⟨_, _, rfl, by simp⟩
  | eos => exact ⟨_, _, rfl, by simp⟩

/-- Everything the block's own step can do when it answers, by phase (rule R164). -/
theorem blockStep_cases {tn : Turn} {s t : State} (h : blockStep tn s = .next t) :
    (s.phase = .map ∧ s.life = [] ∧ t = acquire tn.acquireOk s) ∨
    (∃ op rest, (s.phase = .map ∨ ∃ st, s.phase = .release st) ∧ s.life = op :: rest ∧
      t = runLifeOp op rest s) ∨
    (s.phase = .start ∧ runTodo .fetch s = .next t) ∨
    (s.phase = .fetch ∧ s.input = [] ∧ t = s) ∨
    (∃ u rest, s.phase = .fetch ∧ s.input = u :: rest ∧
      execCmd (decode u) (s.consume rest) = .next t) ∨
    (∃ cmd, s.phase = .exec cmd ∧ execCmd cmd s = .next t) ∨
    (s.phase = .stop ∧ s.todo = [] ∧
      runTodo (.release .success) (s.setTodo (tapEnableOps false)) = .next t) ∨
    (s.phase = .stop ∧ s.todo ≠ [] ∧ runTodo (.release .success) s = .next t) ∨
    (∃ st, s.phase = .release st ∧ s.life = [] ∧ t = release tn.unmapReport st s) := by
  unfold blockStep at h
  split at h <;> rename_i hp
  · unfold mapStep at h
    split at h <;> rename_i hl <;> simp at h <;> simp [hp, hl, h.symm]
  · exact .inr (.inr (.inl ⟨hp, h⟩))
  · unfold fetchStep at h
    split at h <;> rename_i hi
    · exact .inr (.inr (.inr (.inr (.inl ⟨_, _, hp, hi, h⟩))))
    · simp at h; exact .inr (.inr (.inr (.inl ⟨hp, hi, h.symm⟩)))
  · simp [hp, h]
  · unfold stopStep at h
    split at h <;> rename_i ht <;> simp [hp, ht, h]
  · unfold releaseStep at h
    split at h <;> rename_i hl <;> simp at h <;> simp [hp, hl, h.symm]
  · cases h

/-! ### Runs -/

@[simp] theorem run_zero (s : State) : run 0 s = .next s := rfl

/-- A run of one step more starts with that step. -/
theorem run_succ {s t : State} (n : Nat) (h : step s = .next t) : run (n + 1) s = run n t := by
  have : Sys2Proof.core.step s = .next t := h
  simp only [run, Host.Core.run, this]
  rfl

/-- The invariant of every step holds after every run that answers. -/
theorem run_keeps {Inv : State → Prop} (hstep : ∀ s t, Inv s → step s = .next t → Inv t) :
    ∀ n s t, Inv s → run n s = .next t → Inv t
  | 0, s, t, hi, h => by simp at h; exact h ▸ hi
  | n + 1, s, t, hi, h => by
    cases hs : step s with
    | next u => exact run_keeps hstep n u t (hstep s u hi hs) (by rwa [run_succ n hs] at h)
    | fault f =>
      have : Sys2Proof.core.step s = .fault f := hs
      simp [run, Host.Core.run, this] at h
    | refused r =>
      have : Sys2Proof.core.step s = .refused r := hs
      simp [run, Host.Core.run, this] at h

end Sys2Proof.Machine
end

