-- ==== Sys2Proof/Laws/Driver.lean ====
section
/-! SUPPORT. What is left of a WRITE, what one micro-operation leaves alone, and steps under settled
turns. -/

namespace Sys2Proof.Machine

/-! ### The list of a WRITE (rule R138) -/

/-- The head of what is left of a WRITE, and what follows it: a read is followed by its write, a
write by no other write of its line, the poll by FIN, and FIN by nothing. -/
theorem driverOps_suffix_cases {o : MdOrder} {w : Line → Bool} {c m d : Level} {op : MicroOp}
    {rest : List MicroOp} (h : op :: rest <:+ driverOps o w c m d) :
    (∃ line rest', op = .rd line (requested c m d line) ∧ line ≠ .enable ∧
      rest = .wr line (requested c m d line) :: rest') ∨
    (∃ line, op = .wr line (requested c m d line) ∧ line ≠ .enable ∧ rest ≠ [] ∧
      usesHeld rest = false ∧ ∀ l, .wr line l ∉ rest) ∨
    (op = .poll (ackLevel c) ∧ rest = [.fin]) ∨ (op = .fin ∧ rest = []) := by
  cases o <;> cases hm : w .mode <;> cases hd : w .data <;> cases hc : w .clock <;>
    simp only [driverOps, mdLines, lineOps, clockOps, hm, hd, hc, List.flatMap_cons,
      List.flatMap_nil, List.append_nil, List.nil_append, List.cons_append, if_true,
      Bool.false_eq_true, if_false, List.suffix_cons_iff, List.suffix_nil, List.cons.injEq,
      reduceCtorEq, or_false] at h <;>
    (try casesm* _ ∨ _) <;> (casesm* _ ∧ _) <;> subst_vars <;> simp [requested, usesHeld]

/-- A line that a WRITE does not list needs no write (rule R131). -/
theorem mustWrite_of_not_mem {c m d : Level} {s : State} {line : Line} (hl : line ≠ .enable)
    (h : .wr line (requested c m d line) ∉ expandWrite c m d s) :
    mustWrite s line (requested c m d line) = false := by
  by_contra hc
  rw [Bool.not_eq_false] at hc
  apply h
  unfold expandWrite driverOps
  cases Config.mdOrder <;> cases line <;> simp_all [mdLines, lineOps, clockOps, requested]

/-! ### Micro-operations -/

/-- What the update of a line's level does to the last-driven levels. -/
theorem lastDriven_commitLine (s : State) (line line' : Line) (l : Level) :
    lastDriven (commitLine s line l) line' =
      if line' = line ∧ line ≠ .enable then some l else lastDriven s line' := by
  cases line <;> cases line' <;> rfl

/-- The fields no micro-operation writes. -/
theorem runOp_frame {op : MicroOp} {rest : List MicroOp} {s t : State}
    (h : runOp op rest s = .ok t) :
    t.phase = s.phase ∧ SameSession s t ∧ SameWorld s t := by
  rcases runOp_cases h with ⟨_, _, _, _, rfl⟩ | ⟨_, _, _, _, _, _, rfl⟩ | ⟨_, _, _, _, rfl⟩ |
    ⟨_, _, _, _, rfl⟩ | ⟨_, rfl⟩ | ⟨_, _, rfl⟩ | ⟨_, _, _, rfl⟩ | ⟨_, _, rfl⟩ <;>
    simp [commitLine_eq, SameSession, SameWorld]

/-- Only the report of an invalid byte writes the diagnostic history. -/
theorem runOp_diag {op : MicroOp} {rest : List MicroOp} {s t : State}
    (h : runOp op rest s = .ok t) :
    ((∀ b, op ≠ .diagu b) ∧ t.diag = s.diag) ∨
      ∃ b, op = .diagu b ∧ t.diag = s.diag ++ [.unknownCmd b] := by
  rcases runOp_cases h with ⟨_, _, rfl, _, rfl⟩ | ⟨_, _, _, rfl, _, _, rfl⟩ | ⟨_, rfl, _, _, rfl⟩ |
    ⟨_, rfl, _, _, rfl⟩ | ⟨rfl, rfl⟩ | ⟨rfl, _, rfl⟩ | ⟨_, rfl, _, rfl⟩ | ⟨_, rfl, rfl⟩ <;>
    simp [commitLine_eq]

/-- The first half of a read-modify-write, in whatever phase it runs (rule R54). -/
theorem runTodo_rd {after : Phase} {s : State} {line : Line} {l : Level} {op : MicroOp}
    {rest : List MicroOp} (ht : s.todo = .rd line l :: op :: rest) (hm : s.mapped = true) :
    runTodo after s =
      .next (((s.pushReg (.rd s.reg)).setHeld (some s.reg)).setTodo (op :: rest)) := by
  have hr : runOp (.rd line l) (op :: rest) s =
      .ok (((s.pushReg (.rd s.reg)).setHeld (some s.reg)).setTodo (op :: rest)) := by
    simp [runOp, hm]
  rw [runTodo_cons ht hr]; rfl

/-- The second half (rules R54, R55): the register, the line's level, and the phase when done. -/
theorem runTodo_wr {after : Phase} {s : State} {line : Line} {l : Level} {v : Word}
    {rest : List MicroOp} (ht : s.todo = .wr line l :: rest) (hm : s.mapped = true)
    (hh : s.held = some v) :
    runTodo after s = .next (settle after ((commitLine (((s.setEnvReg (writeEffect s.reg
      (insertBit (bitOf line) l v))).pushReg (.wr (insertBit (bitOf line) l v))).setHeld none)
      line l).setTodo rest)) := by
  rw [runTodo_cons ht (by simp only [runOp, hh, regWrite_mapped hm]; rfl)]

/-! ### Steps under settled turns -/

/-- A software-driven bit does not change in a turn (rule R57). -/
theorem worldMove_softBit {s : State} {i : BitIdx} (h : i ∈ softBits) :
    bitAt (worldMove s).reg i = bitAt s.reg i := by simp [h]

/-- With a settled turn in which nobody terminates the block, the step is the phase's step. -/
theorem step_of_turn {s : State} {t : Turn} {ts : List Turn} (he : ended s = none)
    (ht : s.turns = t :: ts) (hk : t.kill = false) : step s = blockStep t (worldMove s) := by
  have hn : nextTurn s = t := by simp [nextTurn, ht]
  rw [step_eq_blockStep ⟨he, hn ▸ hk⟩, hn]

/-- Calm for one turn more: a first calm turn, and calm after it. -/
theorem calmFor_succ {n : Nat} {s : State} (h : CalmFor (n + 1) s) :
    ∃ t ts, s.turns = t :: ts ∧ t.kill = false ∧ n ≤ ts.length ∧
      ∀ x ∈ ts.take n, x.kill = false := by
  obtain ⟨h1, h2⟩ := h
  cases hs : s.turns with
  | nil => simp [hs] at h1
  | cons t ts =>
    simp only [hs, List.length_cons, Nat.add_le_add_iff_right, List.take_succ_cons,
      List.forall_mem_cons] at h1 h2
    exact ⟨t, ts, rfl, h2.1, h1, h2.2⟩

/-- An instant acknowledge moves only bits that are the environment's (rules R26, R58). -/
theorem envMove_envAckWord (dOut : Word → Word → Level) (log : List RegEvent) (reg : Word) :
    envMove reg (envAckWord dOut log reg) = envAckWord dOut log reg := by
  refine bitAt_ext fun i => ?_
  have ha : i ∈ softBits → i ≠ Config.bClockAck := fun h e => bClockAck_not_soft (e ▸ h)
  have hd : i ∈ softBits → i ≠ Config.bDataOut := fun h e => bDataOut_not_soft (e ▸ h)
  rw [bitAt_envMove]
  split_ifs with h
  · unfold envAckWord
    split
    · split_ifs <;> simp [ha h, hd h]
    · rfl
  · rfl

end Sys2Proof.Machine
end

