-- ==== Sys2Proof/Laws/PerInstr.lean ====
section
/-! SUPPORT. One lemma per instruction: its byte fits exactly one row of the opcode map, its own. -/

namespace Sys2Proof.Laws.OneRow

/-- The rows the instruction's byte fits are exactly its own row (rules R75, R76). -/
def Statement (i : Instr) : Prop :=
  (opcodeRows.filter fun r => r.fits (encode i)).map OpcodeRow.mnemonic = [i.mnemonic]

theorem write (c m d : Level) : Statement (.write c m d) := by
  cases c <;> cases m <;> cases d <;> unfold Statement <;> decide
theorem read : Statement .read := by unfold Statement; decide
theorem quit : Statement .quit := by unfold Statement; decide
theorem blinkUpper : Statement .blinkUpper := by unfold Statement; decide
theorem blinkLower : Statement .blinkLower := by unfold Statement; decide
theorem resetR : Statement .resetR := by unfold Statement; decide
theorem resetR1 : Statement .resetR1 := by unfold Statement; decide
theorem resetR2 : Statement .resetR2 := by unfold Statement; decide
theorem resetR3 : Statement .resetR3 := by unfold Statement; decide

end Sys2Proof.Laws.OneRow
end

