-- ==== Sys2Proof/Tests/Slice0.lean ====
section
/-! SUPPORT. Own tests: the encoding from words written out by hand, one step of each instruction,
and for every statement with hypotheses a state and operands that meet them. Expected values come
from spec/30_encoding.md, the rule named at each test, and spec/95_test_vectors.md. -/

namespace Sys2Proof.Tests

open Sys2Proof Sys2Proof.Machine

/-! ### Well-formedness: an ill-formed term for each check (rules R76, R78) -/

theorem test_wf_refuses_write_as_invalid : (Cmd.invalid 0x30#8).wf = false := by decide
theorem test_wf_refuses_last_write_as_invalid : (Cmd.invalid 0x37#8).wf = false := by decide
theorem test_wf_refuses_opcodes_as_invalid :
    ∀ b ∈ [0x42#8, 0x51#8, 0x52#8, 0x62#8, 0x72#8, 0x75#8], (Cmd.invalid b).wf = false := by decide
theorem test_wf_accepts_range_ends :
    ∀ b ∈ [0x00#8, 0x2F#8, 0x38#8, 0x41#8, 0x43#8, 0x50#8, 0x53#8, 0x61#8, 0x63#8, 0x71#8, 0x76#8,
      0xFF#8], (Cmd.invalid b).wf = true := by decide

/-! ### Decoding: words written out from rules R71 and R75 -/

theorem test_decode_write_digits :
    [0x30#8, 0x31#8, 0x32#8, 0x33#8, 0x34#8, 0x35#8, 0x36#8, 0x37#8].map decodeByte =
      [.instr (.write false false false), .instr (.write false false true),
       .instr (.write false true false), .instr (.write false true true),
       .instr (.write true false false), .instr (.write true false true),
       .instr (.write true true false), .instr (.write true true true)] := by decide
theorem test_decode_read : decodeByte 0b01010010#8 = .instr .read := by decide
theorem test_decode_quit : decodeByte 0b01010001#8 = .instr .quit := by decide
theorem test_decode_blinkUpper : decodeByte 0b01000010#8 = .instr .blinkUpper := by decide
theorem test_decode_blinkLower : decodeByte 0b01100010#8 = .instr .blinkLower := by decide
theorem test_decode_resetR : decodeByte 0b01110010#8 = .instr .resetR := by decide
theorem test_decode_resetR1 : decodeByte 0b01110011#8 = .instr .resetR1 := by decide
theorem test_decode_resetR2 : decodeByte 0b01110100#8 = .instr .resetR2 := by decide
theorem test_decode_resetR3 : decodeByte 0b01110101#8 = .instr .resetR3 := by decide
/-- Rule R79 and spec/95_test_vectors.md section 3.1: the neighbours and the other case. -/
theorem test_decode_rejects_neighbours :
    ∀ b ∈ [0x2F#8, 0x38#8, 0x41#8, 0x43#8, 0x50#8, 0x53#8, 0x61#8, 0x63#8, 0x71#8, 0x76#8, 0x0A#8,
      0xFF#8], decodeByte b = .invalid b := by decide
theorem test_decode_eos : decode .eos = .eos := rfl
theorem test_decodeTableWord :
    decodeTableWord 8 0x36 = some (.write true true false) ∧ decodeTableWord 8 0x52 = some .read ∧
      decodeTableWord 8 0x71 = none := by decide

/-! ### Small states -/

/-- A turn in which the environment presents `w` and nobody acts. -/
def turnOf (w : Word) : Turn := ⟨w, none, false, true, false⟩

/-- A running session in phase `p` with `ops` left, the register at 0, and the turns `ts`. -/
def small (p : Phase) (ops : List MicroOp) (ts : List Turn) : State :=
  { State.reset with
    phase := p, todo := ops, mapped := true, mapLog := [.acquired], reg := 0#32, turns := ts }

/-- Waiting in FETCH with `us` on offer. -/
def fetching (us : List InUnit) (ts : List Turn) : State := { small .fetch [] ts with input := us }

/-- WRITE 0,0,1 about to write its data line, the other two lines at the requested level 0. -/
def writingData : State :=
  { small (.exec (.instr (.write false false true))) [.wr .data true, .fin] [turnOf 0] with
    held := some 0, lastMode := some false, lastClk := some false }

/-- READ about to emit, its sample having all bits 1. -/
def emitting : State :=
  { small (.exec (.instr .read)) [.emit] [turnOf 0] with held := some (BitVec.allOnes 32) }

/-- `s` after its data line is written: the word 0 with DATA_IN at 1 (R54, R132, R138). -/
def dataWritten (s : State) : State :=
  { s with
    held := none, todo := [.fin], lastData := some true
    reg := writeEffect s.reg (insertBit Config.bDataIn true 0)
    regLog := [.wr (insertBit Config.bDataIn true 0)] }

/-! ### One step of each instruction -/

theorem exec_writingData :
    exec (.write false false true) writingData = .next (dataWritten writingData) := by
  simp [exec, execWrite, writingData, small, perform, runTodo, runOp, regWrite, memWrite, settle,
    commitLine, dataWritten, State.setHeld, State.setTodo, State.pushReg, State.setEnvReg,
    State.setLastData, State.reset, bitOf]

theorem step_writingData :
    step writingData = .next (dataWritten (worldMove writingData)) := by
  rw [step_of_turn (t := turnOf 0) (ts := []) rfl rfl rfl]
  simp [blockStep, execCmd, exec, execWrite, writingData, small, perform, runTodo, runOp, regWrite,
    memWrite, settle, commitLine, dataWritten, State.setHeld, State.setTodo, State.pushReg,
    State.setEnvReg, State.setLastData, State.reset, bitOf]

/-- WRITE: the line's bit of the register and its last-driven level take the level (R132, R138). -/
theorem test_write_commits_data : ∃ t, exec (.write false false true) writingData = .next t ∧
    bitAt t.reg Config.bDataIn = true ∧ t.lastData = some true ∧ t.todo = [.fin] :=
  ⟨_, exec_writingData, by
    show bitAt (writeEffect _ (insertBit (bitOf .data) true _)) (bitOf .data) = true
    simp, rfl, rfl⟩

/-- WRITE: a repeated command lists FIN only (vector V-55). -/
theorem test_write_elides : expandWrite true false true
    { fetching [] [] with
      first := false, lastClk := some true, lastMode := some false, lastData := some true } =
      [.fin] := by
  unfold expandWrite; cases Config.mdOrder <;> rfl

/-- READ emits `'1'` for DATA_OUT = 1 (R150). -/
theorem test_read_emits_one : ∃ t, exec .read emitting = .next t ∧ t.out = [0x31#8] ∧
    t.phase = .fetch :=
  ⟨_, rfl, by
    show [symbol (bitAt (BitVec.allOnes 32) Config.bDataOut)] = _
    rw [bitAt_allOnes]; rfl, rfl⟩

/-- READ's sample reads the register and writes no bit of it (R150, R153). -/
theorem test_read_samples :
    ∃ t, exec .read (small (.exec (.instr .read)) [.sample, .emit] []) = .next t ∧
      t.held = some 0#32 ∧ t.regLog = [.rd 0#32] ∧ t.reg = 0#32 :=
  ⟨{ small (.exec (.instr .read)) [.emit] [] with held := some 0#32, regLog := [.rd 0#32] }, by
    simp [exec, execRead, small, perform, runTodo, runOp, regRead, memRead, settle, State.setHeld,
      State.setTodo, State.pushReg, State.reset], rfl, rfl, rfl⟩

theorem test_quit_stops : ∃ t, exec .quit (fetching [] []) = .next t ∧ t.phase = .stop ∧
    t.regLog = [] ∧ t.pos = 0 := ⟨_, rfl, rfl, rfl, rfl⟩
theorem test_blinkUpper_skips :
    exec .blinkUpper (fetching [] []) = .next (fetching [] []) := rfl
theorem test_blinkLower_skips :
    exec .blinkLower (fetching [] []) = .next (fetching [] []) := rfl
theorem test_resetR_skips : exec .resetR (fetching [] []) = .next (fetching [] []) := rfl
theorem test_resetR1_skips : exec .resetR1 (fetching [] []) = .next (fetching [] []) := rfl
theorem test_resetR2_skips : exec .resetR2 (fetching [] []) = .next (fetching [] []) := rfl
theorem test_resetR3_skips : exec .resetR3 (fetching [] []) = .next (fetching [] []) := rfl

/-- Vector V-X5: `'X'` gives one UNKNOWN_CMD(0x58) and no register access. -/
theorem test_invalid_reports : ∃ t,
    step (small (.exec (.invalid 0x58#8)) [.diagu 0x58#8] [turnOf 0]) = .next t ∧
      t.diag = [.unknownCmd 0x58#8] ∧ t.regLog = [] ∧ t.phase = .fetch :=
  ⟨_, rfl, rfl, rfl, rfl⟩

/-- EOS is fetched and moves to STOP (R111). -/
theorem test_eos_stops : ∃ t, step (fetching [.eos] [turnOf 0]) = .next t ∧ t.phase = .stop ∧
    t.pos = 1 := ⟨_, rfl, rfl, rfl⟩

/-- A placed word runs as the first instruction after reset. -/
theorem test_withFetchWord : ∃ t, step (State.reset.withFetchWord 8 0x52) = .next t ∧
    t.phase = .exec (.instr .read) ∧ t.todo = [.sample, .emit] ∧ t.pos = 1 :=
  ⟨_, rfl, rfl, rfl, rfl⟩

/-! ### Witnesses: a concrete state and operands for every statement with hypotheses -/

theorem witness_InvalidBytesAreTheListedRanges :
    isInvalidByte 0x2F#8 = true ∧ isInvalidByte 0x30#8 = false ∧ isInvalidByte 0x37#8 = false ∧
      isInvalidByte 0x38#8 = true ∧ isInvalidByte 0x75#8 = false ∧ isInvalidByte 0x76#8 = true := by
  decide

theorem witness_ProgramRoundTrip :
    ∀ c ∈ [Cmd.instr (.write true true false), .invalid 0x71#8, .instr .read, .eos],
      c.wf = true := by decide

theorem witness_StepRunsDecodedInstruction :
    let s := fetching [.byte 0x52#8] [turnOf 0]
    TakesStep s ∧ s.phase = .fetch ∧ (worldMove s).input = .byte 0x52#8 :: [] ∧
      decode (.byte 0x52#8) = .instr .read := ⟨⟨rfl, rfl⟩, rfl, rfl, by decide⟩

theorem witness_StepContinuesRunningInstruction :
    TakesStep emitting ∧ emitting.phase = .exec (.instr .read) := ⟨⟨rfl, rfl⟩, rfl⟩

theorem witness_SilentHostLeavesBlockWaiting :
    let s := fetching [] [turnOf 0]
    TakesStep s ∧ s.phase = .fetch ∧ (worldMove s).input = [] := ⟨⟨rfl, rfl⟩, rfl, rfl⟩

theorem witness_EnvironmentMovesOnlyItsBits :
    Config.bEnable ∈ softBits ∧ Config.bDataOut ∉ softBits ∧ Config.bClockAck ∉ softBits :=
  ⟨bitOf_mem_softBits .enable, bDataOut_not_soft, bClockAck_not_soft⟩

theorem witness_SoftwareBitsChangeOnlyByWrites : ∃ t, step writingData = .next t ∧
    Config.bDataIn ∈ softBits ∧
      bitAt t.reg Config.bDataIn ≠ bitAt writingData.reg Config.bDataIn := by
  refine ⟨_, step_writingData, bitOf_mem_softBits .data, ?_⟩
  show bitAt (writeEffect _ (insertBit (bitOf .data) true _)) (bitOf .data) ≠ bitAt 0#32 _
  simp

/-- The two clauses: a fetch, and a step that consumes nothing. -/
theorem witness_PosCountsConsumedUnits :
    (∃ t, step (fetching [.byte 0x42#8] [turnOf 0]) = .next t) ∧ ∃ t, step emitting = .next t :=
  ⟨⟨_, rfl⟩, _, rfl⟩

theorem witness_StepAddsAtMostOneEvent : ∃ t, step emitting = .next t ∧
    eventCount t = eventCount emitting + 1 := ⟨_, rfl, rfl⟩

theorem witness_RegisterAccessOnlyWhileMapped : ∃ t, step writingData = .next t ∧
    t.regLog ≠ writingData.regLog := ⟨_, step_writingData, by show [_] ≠ []; simp⟩

/-! The session invariant on the small states -/

theorem leftOf_writingData :
    LeftOf (.instr (.write false false true)) [.wr .data true, .fin] :=
  ⟨fun line => line == .data, by cases Config.mdOrder <;> exact ⟨[.rd .data true], rfl⟩⟩

theorem sessionInv_writingData : SessionInv writingData :=
  ⟨rfl, rfl, rfl, rfl, by simp [OnlyUnknown, writingData, small, State.reset],
    by simp [writingData, small], leftOf_writingData⟩

theorem sessionInv_emitting : SessionInv emitting :=
  ⟨rfl, rfl, rfl, rfl, by simp [OnlyUnknown, emitting, small, State.reset],
    by simp [emitting, small], ⟨[.sample], rfl⟩⟩

theorem sessionInv_fetching (us : List InUnit) (ts : List Turn) : SessionInv (fetching us ts) :=
  ⟨rfl, rfl, rfl, rfl, by simp [OnlyUnknown, fetching, small, State.reset], rfl⟩

theorem lineMirror_writingData : LineMirror writingData := by
  refine ⟨fun line l h => ?_, fun v h i _ => ?_⟩
  · cases line <;> simp_all [lastDriven, writingData, small, State.reset]
  · cases h; rfl

/-- MAP, with the two answers of `acquire()`. -/
def mapping (ok : Bool) : State :=
  { State.reset with turns := [⟨0#32, none, false, ok, false⟩] }

theorem sessionInv_mapping (ok : Bool) : SessionInv (mapping ok) := by
  simp [SessionInv, PhaseHolds, mapping, State.reset, usesHeld]

/-- Fetches that enter EXEC and STOP, an instruction that ends, the answer of `acquire()`. -/
theorem witness_PhasesMoveAsListed :
    (SessionInv (mapping true) ∧ ∃ t, step (mapping true) = .next t ∧ t.phase = .start) ∧
    (SessionInv (fetching [.byte 0x52#8] [turnOf 0]) ∧
      ∃ t, step (fetching [.byte 0x52#8] [turnOf 0]) = .next t ∧ t.phase = .exec (.instr .read)) ∧
    (SessionInv (fetching [.eos] [turnOf 0]) ∧
      ∃ t, step (fetching [.eos] [turnOf 0]) = .next t ∧ t.phase = .stop) ∧
    (SessionInv emitting ∧ ∃ t, step emitting = .next t ∧ t.phase = .fetch) :=
  ⟨⟨sessionInv_mapping true, _, rfl, rfl⟩, ⟨sessionInv_fetching _ _, _, rfl, rfl⟩,
    ⟨sessionInv_fetching _ _, _, rfl, rfl⟩, sessionInv_emitting, _, rfl, rfl⟩

theorem witness_LoopEndsOnlyOnQuitOrEos :
    let s := fetching [.byte 0x51#8] [turnOf 0]
    SessionInv s ∧ ∃ t, step s = .next t ∧ s.phase = .fetch ∧ t.phase ≠ .fetch ∧
      ∀ cmd, t.phase ≠ .exec cmd :=
  ⟨sessionInv_fetching _ _, _, rfl, rfl, nofun, nofun⟩

/-- A fetch, and a command that ends. -/
theorem witness_NextUnitWaitsForTheCommand :
    (SessionInv (fetching [.byte 0x42#8] [turnOf 0]) ∧
      ∃ t, step (fetching [.byte 0x42#8] [turnOf 0]) = .next t ∧ t.pos ≠ 0) ∧
    SessionInv emitting ∧ emitting.phase = .exec (.instr .read) ∧
      ∃ t, step emitting = .next t ∧ t.phase = .fetch :=
  ⟨⟨sessionInv_fetching _ _, _, rfl, by show 0 + 1 ≠ 0; decide⟩, sessionInv_emitting, rfl, _, rfl,
    rfl⟩

theorem witness_WriteExpandsByDriverState : (fetching [] []).phase = .fetch := rfl

theorem witness_WriteReadsLiveRegister :
    let s := small (.exec (.instr (.write false false true)))
      [.rd .data true, .wr .data true, .fin] []
    s.phase = .exec (.instr (.write false false true)) ∧
      s.todo = .rd .data true :: .wr .data true :: [.fin] ∧ s.mapped = true := ⟨rfl, rfl, rfl⟩

theorem witness_WriteCommitsOneLine :
    writingData.phase = .exec (.instr (.write false false true)) ∧
      writingData.todo = .wr .data true :: .fin :: [] ∧ writingData.held = some 0 ∧
      writingData.mapped = true := ⟨rfl, rfl, rfl, rfl⟩

/-- A poll on a register of zeros: awaiting 0 it ends, awaiting 1 it goes on. -/
theorem witness_PollEndsOnFirstMatchingRead : ∀ e : Level,
    let s := small (.exec (.instr (.write e false false))) [.poll e, .fin] []
    s.phase = .exec (.instr (.write e false false)) ∧ s.todo = .poll e :: .fin :: [] ∧
      s.mapped = true := fun _ => ⟨rfl, rfl, rfl⟩

theorem witness_FinEndsTheCall :
    let s := small (.exec (.instr (.write true true true))) [.fin] []
    s.phase = .exec (.instr (.write true true true)) ∧ s.todo = [.fin] := ⟨rfl, rfl⟩

theorem witness_WriteFrame : SessionInv writingData ∧ LineMirror writingData ∧
    ∃ t, exec (.write false false true) writingData = .next t :=
  ⟨sessionInv_writingData, lineMirror_writingData, _, exec_writingData⟩

theorem witness_RepeatedWriteMakesNoAccess :
    let s := { fetching [.byte (encode (.write true false true))] [turnOf 0, turnOf 0] with
      first := false, lastClk := some true, lastMode := some false, lastData := some true }
    ended s = none ∧ CalmFor 2 s ∧ s.phase = .fetch ∧
      s.input = .byte (encode (.write true false true)) :: [] ∧ s.first = false ∧
      s.lastClk = some true ∧ s.lastMode = some false ∧ s.lastData = some true :=
  ⟨rfl, ⟨le_refl 2, by decide⟩, rfl, rfl, rfl, rfl, rfl, rfl⟩

theorem witness_ClockComesAfterModeAndData : ∃ pre,
    expandWrite true false false { fetching [] [] with
      first := false, lastClk := some false, lastMode := some false, lastData := some false } =
      pre ++ .rd .clock true :: [.wr .clock true, .poll (ackLevel true), .fin] :=
  ⟨[], by unfold expandWrite; cases Config.mdOrder <;> rfl⟩

/-- Seven accesses and FIN on a first call, with the acknowledge presented in every turn. -/
theorem witness_WriteCompletesWhenAcknowledged :
    let s := fetching [.byte (encode (.write true false true))]
      (List.replicate 9 (turnOf (insertBit Config.bClockAck (ackLevel true) 0#32)))
    9 = (expandWrite true false true s).length + 1 ∧ ended s = none ∧ CalmFor 9 s ∧
      AckFor 9 (ackLevel true) s ∧ SessionInv s ∧ LineMirror s ∧ s.phase = .fetch ∧
      s.input = .byte (encode (.write true false true)) :: [] := by
  refine ⟨?_, rfl, ⟨le_refl 9, ?_⟩, ?_, sessionInv_fetching _ _, ?_, rfl, rfl⟩
  · unfold expandWrite; cases Config.mdOrder <;> rfl
  · intro t ht; rw [List.eq_of_mem_replicate (List.mem_of_mem_take ht)]; rfl
  · intro t ht; rw [List.eq_of_mem_replicate (List.mem_of_mem_take ht)]; simp [turnOf]
  · exact ⟨fun line l h => (by cases line <;> cases h), nofun⟩

/-- Awaiting 1 while every turn presents 0, for three steps. -/
theorem witness_PollHangsWithoutAcknowledge :
    let s := small (.exec (.instr (.write true true true))) [.poll true, .fin]
      [turnOf 0, turnOf 0, turnOf 0]
    ended s = none ∧ CalmFor 3 s ∧ AckFor 3 (!true) s ∧ s.mapped = true ∧
      s.phase = .exec (.instr (.write true true true)) ∧ s.todo = .poll true :: [.fin] :=
  ⟨rfl, ⟨le_refl 3, by decide⟩, by simp [AckFor, small, turnOf], rfl, rfl, rfl⟩

/-- After a rising clock write, with the word that `ENV_ACK` presents. -/
theorem witness_NamedLawsDecideThePoll_ack :
    let v := insertBit Config.bClock true 0#32
    let s : State := { small (.exec (.instr (.write true true true)))
      [.poll (ackLevel true), .fin]
      [turnOf (envAckWord (fun _ _ => false) [.rd 0#32, .wr v] 0#32)] with
      regLog := [.rd 0#32, .wr v] }
    TakesStep s ∧ Obeys (envAck fun _ _ => false) s ∧ s.mapped = true ∧
      s.phase = .exec (.instr (.write true true true)) ∧
      s.todo = .poll (ackLevel true) :: .fin :: [] ∧ s.regLog = [] ++ [.rd 0#32, .wr v] ∧
      bitAt v Config.bClock = true :=
  ⟨⟨rfl, rfl⟩, envMove_envAckWord _ _ _, rfl, rfl, rfl, rfl, by simp⟩

/-- Under `ENV_NOACK` with CLOCK_ACK at 0, awaiting 1 and awaiting 0. -/
theorem witness_NamedLawsDecideThePoll_noAck : ∀ e : Level,
    let s := small (.exec (.instr (.write true true true))) [.poll e, .fin] [turnOf 0]
    TakesStep s ∧ Obeys envNoAck s ∧ s.mapped = true ∧
      s.phase = .exec (.instr (.write true true true)) ∧ s.todo = .poll e :: .fin :: [] :=
  fun _ => ⟨⟨rfl, rfl⟩, by simp [Obeys, envNoAck, small, nextTurn, turnOf], rfl, rfl, rfl⟩

theorem witness_MirrorLawCopiesDataOnRisingClock :
    let v := insertBit Config.bClock true 0#32
    let mirror := fun p v =>
      if bitAt v Config.bClock = true then bitAt v Config.bDataIn else bitAt p Config.bDataOut
    let s : State := { small .fetch []
      [turnOf (envAckWord mirror [.rd 0#32, .wr v] 0#32)] with regLog := [.rd 0#32, .wr v] }
    Obeys envAckMirror s ∧ s.regLog = [] ++ [.rd 0#32, .wr v] ∧
      bitAt 0#32 Config.bClock = false ∧ bitAt v Config.bClock = true :=
  ⟨envMove_envAckWord _ _ _, rfl, by simp, by simp⟩

/-- A WRITE, START and STOP with the environment setting every bit and clearing it again; the bit at
place 6 is unrelated. -/
theorem witness_UpdateInsideReadModifyWriteIsLost :
    (∀ x ∈ [(Phase.exec (.instr (.write false false true)),
          [MicroOp.rd .data true, .wr .data true, .fin]),
        (.start, tapEnableOps true), (.stop, [])],
      let s := small x.1 x.2 [turnOf (BitVec.allOnes 32), turnOf 0]
      ended s = none ∧ s.mapped = true ∧ RunsWrites s ∧
        (∃ line l rest, pendingOps s = .rd line l :: .wr line l :: rest) ∧
        s.turns = turnOf (BitVec.allOnes 32) :: turnOf 0 :: []) ∧
    (turnOf (BitVec.allOnes 32)).kill = false ∧ (turnOf 0).kill = false ∧
      Config.fieldPlace 6 ∉ softBits ∧ Config.fieldPlace 6 ∉ inputBits ∧
      Config.bDataOut ∉ softBits ∧ Config.bDataOut ∈ inputBits := by
  refine ⟨?_, rfl, rfl, ?_, ?_, bDataOut_not_soft, List.mem_cons_self ..⟩
  · simp only [List.forall_mem_cons]
    exact ⟨⟨rfl, rfl, .inr (.inr ⟨_, _, _, rfl⟩), ⟨_, _, _, rfl⟩, rfl⟩,
      ⟨rfl, rfl, .inl rfl, ⟨_, _, _, rfl⟩, rfl⟩, ⟨rfl, rfl, .inr (.inl rfl), ⟨_, _, _, rfl⟩, rfl⟩,
      nofun⟩
  all_goals simp [softBits, inputBits, Config.bEnable, Config.bClock, Config.bMode,
    Config.bDataIn, Config.bDataOut, Config.bClockAck]

theorem witness_ReadSamplesThenEmits :
    (fetching [] []).phase = .fetch ∧
    (small (.exec (.instr .read)) [.sample, .emit] []).phase = .exec (.instr .read) ∧
    (small (.exec (.instr .read)) [.sample, .emit] []).todo = [.sample, .emit] ∧
    (small (.exec (.instr .read)) [.sample, .emit] []).mapped = true ∧
    emitting.phase = .exec (.instr .read) ∧ emitting.todo = [.emit] ∧
      emitting.held = some (BitVec.allOnes 32) :=
  ⟨rfl, rfl, rfl, rfl, rfl, rfl, rfl⟩

theorem witness_ReadReportsPresentDataOut :
    let s := fetching [.byte (encode .read)] [turnOf 0, turnOf (BitVec.allOnes 32), turnOf 0]
    ended s = none ∧
      s.turns = turnOf 0 :: turnOf (BitVec.allOnes 32) :: turnOf 0 :: [] ∧
      (turnOf 0).kill = false ∧ (turnOf (BitVec.allOnes 32)).kill = false ∧ s.phase = .fetch ∧
      s.mapped = true ∧ s.input = .byte (encode .read) :: [] := ⟨rfl, rfl, rfl, rfl, rfl, rfl, rfl⟩

theorem witness_ReadFrame : SessionInv emitting ∧ ∃ t, exec .read emitting = .next t :=
  ⟨sessionInv_emitting, _, rfl⟩

theorem witness_OnlyReadWritesOutput : SessionInv emitting ∧ ∃ t, step emitting = .next t ∧
    t.out ≠ emitting.out := ⟨sessionInv_emitting, _, rfl, by show [_] ≠ []; simp⟩

/-- The three reports: an invalid byte, the failed mapping, the release after it. -/
theorem witness_DiagnosticsGrowOnlyByTheThreeReports :
    (∃ s t, SessionInv s ∧ step s = .next t ∧ t.diag ≠ s.diag ∧ s.phase = .exec (.invalid 0x76#8)) ∧
    (∃ s t, SessionInv s ∧ step s = .next t ∧ t.diag ≠ s.diag ∧ s.phase = .map) ∧
    ∃ s t, SessionInv s ∧ step s = .next t ∧ t.diag ≠ s.diag ∧ s.phase = .release .failure := by
  refine ⟨⟨small (.exec (.invalid 0x76#8)) [.diagu 0x76#8] [turnOf 0], _, ?_, rfl,
      by show [_] ≠ []; simp, rfl⟩,
    ⟨{ mapping false with life := [.reportMapFail], mapLog := [.acquireFailed] }, _, ?_, rfl,
      by show [_] ≠ []; simp, rfl⟩,
    { mapping false with
      phase := .release .failure, life := [.reportUnmap, .exit .failure], diag := [.mapFail]
      mapLog := [.acquireFailed, .released] }, _, ?_, rfl,
      by show [DiagEvent.mapFail, _] ≠ [_]; simp, rfl⟩
  · exact ⟨rfl, rfl, rfl, rfl, by simp [OnlyUnknown, small, State.reset], by simp [small],
      List.suffix_refl _, by decide⟩
  · simp [SessionInv, PhaseHolds, mapping, State.reset, usesHeld]
  · simp [SessionInv, PhaseHolds, mapping, State.reset, usesHeld, openedBy, ClosedHistories]

theorem witness_StubsChangeNothing : ∀ i ∈ [Instr.blinkUpper, .blinkLower, .resetR, .resetR1,
    .resetR2, .resetR3], (i = .blinkUpper ∨ i = .blinkLower ∨ i = .resetR ∨ i = .resetR1 ∨
      i = .resetR2 ∨ i = .resetR3) ∧ (fetching [] []).phase = .fetch := by
  simp [fetching, small]

theorem witness_StubStepOnlyAdvancesPos :
    let s := fetching [.byte (encode .resetR3), .eos] [turnOf 0]
    TakesStep s ∧ s.phase = .fetch ∧ s.todo = [] ∧
      (worldMove s).input = .byte (encode .resetR3) :: [.eos] := ⟨⟨rfl, rfl⟩, rfl, rfl, rfl⟩

theorem witness_QuitGoesToStop : (fetching [] []).phase = .fetch := rfl

/-- The two units that end the loop. -/
theorem witness_QuitAndEosEndTheSession : ∀ u ∈ [InUnit.byte 0x51#8, .eos],
    let s := fetching [u, .byte 0x35#8] (List.replicate 5 (turnOf 0))
    ended s = none ∧ CalmFor 5 s ∧ s.phase = .fetch ∧ s.mapped = true ∧ s.life = [] ∧
      s.input = u :: [.byte 0x35#8] ∧ (decode u = .instr .quit ∨ decode u = .eos) := by
  intro u hu
  refine ⟨rfl, ⟨le_refl 5, fun t ht => ?_⟩, rfl, rfl, rfl, rfl, ?_⟩
  · rw [List.eq_of_mem_replicate (List.mem_of_mem_take ht)]; rfl
  · revert u; decide

/-- Two invalid bytes, the ends of two ranges of rule R78. -/
theorem witness_InvalidBytesEachMakeOneReport :
    let bs : List Byte := [0x2F#8, 0x76#8]
    let s := fetching (bs.map .byte ++ [.eos]) [turnOf 0, turnOf 0, turnOf 0, turnOf 0]
    (∀ b ∈ bs, isInvalidByte b = true) ∧ ended s = none ∧ CalmFor (2 * bs.length) s ∧
      s.phase = .fetch ∧ s.todo = [] ∧ s.input = bs.map .byte ++ [.eos] :=
  ⟨by decide, rfl, ⟨le_refl 4, by decide⟩, rfl, rfl, rfl⟩

theorem witness_SessionStartEnablesTap :
    let s : State := { State.reset with turns := [turnOf 0, turnOf 0, turnOf 0] }
    ended s = none ∧ s.phase = .map ∧ s.life = [] ∧
      s.turns = turnOf 0 :: turnOf 0 :: turnOf 0 :: [] ∧ (turnOf 0).kill = false ∧
      (turnOf 0).acquireOk = true := ⟨rfl, rfl, rfl, rfl, rfl, rfl⟩

/-- Both draws of the UNMAP_WITHOUT_MAP report. -/
theorem witness_MappingFailureEndsWithoutAccess : ∀ r : Bool,
    let t : Turn := ⟨0#32, none, false, false, r⟩
    let s : State := { State.reset with turns := [t, t, t, t, t] }
    ended s = none ∧ s.phase = .map ∧ s.life = [] ∧ s.turns = t :: t :: t :: t :: t :: [] ∧
      t.kill = false ∧ t.acquireOk = false ∧ t.unmapReport = r :=
  fun _ => ⟨rfl, rfl, rfl, rfl, rfl, rfl, rfl⟩

theorem witness_ExitOutputsAreDistinct :
    State.reset.setKilled.killed = true ∧ State.reset.killed = false ∧
      (State.reset.setPhase (.exited .success)).phase = .exited .success ∧
      (State.reset.setPhase (.exited .failure)).phase = .exited .failure ∧
      ∀ st, State.reset.phase ≠ .exited st := ⟨rfl, rfl, rfl, rfl, nofun⟩

/-- Termination between the read and the write of a line. -/
theorem witness_TerminationStopsTheBlock :
    let s : State := { writingData with turns := [⟨0#32, none, true, true, false⟩] }
    ended s = none ∧ (nextTurn s).kill = true := ⟨rfl, rfl⟩

theorem witness_ExitedTakesNoStep :
    let s := State.reset.setPhase (.exited .failure)
    s.killed = false ∧ s.phase = .exited .failure := ⟨rfl, rfl⟩

theorem witness_UnmappedAccessFaults :
    let s : State := { State.reset with
      phase := .exec (.instr (.write false false true)), todo := .rd .data true :: [] }
    s.mapped = false ∧ s.phase = .exec (.instr (.write false false true)) ∧
      s.todo = .rd .data true :: [] := ⟨rfl, rfl, rfl⟩

/-- The end of a successful session. -/
def exitedState : State :=
  { State.reset with phase := .exited .success, mapLog := [.acquired, .released] }

theorem witness_MeaningsStopByName_step : SessionInv exitedState ∧
    step exitedState = .fault (.sessionOver .success) := by
  refine ⟨?_, rfl⟩
  simp [SessionInv, PhaseHolds, exitedState, State.reset, usesHeld, openedBy, ClosedHistories,
    OnlyUnknown]

theorem witness_MeaningsStopByName :
    (State.reset.phase ≠ .fetch ∧ State.reset.phase ≠ .exec (.instr .quit)) ∧
    (let s := small (.exec (.instr (.write false false true))) [.wr .data true, .fin] []
     s.phase = .exec (.instr (.write false false true)) ∧ s.todo = .wr .data true :: [.fin] ∧
      s.held = none) ∧
    let s := small (.exec (.instr .read)) [.emit] []
    s.phase = .exec (.instr .read) ∧ s.todo = .emit :: [] ∧ s.held = none :=
  ⟨⟨nofun, nofun⟩, ⟨rfl, rfl, rfl⟩, rfl, rfl, rfl⟩

theorem witness_RegisterTransactions : (fetching [] []).mapped = true := rfl

theorem witness_OnlyWriteChangesDriverState : SessionInv writingData ∧
    ∃ t, step writingData = .next t ∧ ¬ SameDriver writingData t := by
  refine ⟨sessionInv_writingData, _, step_writingData, fun h => ?_⟩
  have h : some true = none := h.2.2.2
  cases h

theorem witness_SessionInvariantIsKept : SessionInv writingData ∧
    ∃ t, step writingData = .next t := ⟨sessionInv_writingData, _, step_writingData⟩

theorem witness_StepsUntilTheSessionEnds : SessionInv (mapping false) ∧
    ended (mapping false) = none := ⟨sessionInv_mapping false, rfl⟩

theorem witness_LineMirrorIsKept : LineMirror writingData ∧ ∃ t, step writingData = .next t :=
  ⟨lineMirror_writingData, _, step_writingData⟩

theorem witness_TapStaysEnabled :
    let s : State := { fetching [.byte 0x52#8] [turnOf 0] with
      reg := insertBit Config.bEnable Config.enableOn 0#32 }
    SessionInv s ∧ LineMirror s ∧ TapEnabled s ∧ ∃ t, step s = .next t :=
  ⟨sessionInv_fetching [.byte 0x52#8] [turnOf 0],
    ⟨fun line l h => (by cases line <;> cases h), nofun⟩,
    by simp [TapEnabled, fetching, small], _, rfl⟩

theorem witness_DriverStateIsKnown : SessionInv writingData ∧ DriverKnown writingData ∧
    ∃ t, step writingData = .next t := by
  refine ⟨sessionInv_writingData, ⟨nofun, ?_⟩, _, step_writingData⟩
  intro line hl hn
  cases line with
  | mode => rfl
  | clock => rfl
  | data => exact absurd (List.mem_cons_self ..) hn
  | enable => exact absurd rfl hl

theorem witness_OutputAlphabetIsKept : OutputBits emitting ∧ ∃ t, step emitting = .next t :=
  ⟨nofun, _, rfl⟩

end Sys2Proof.Tests
end

section
/-! PROOFS of the statements from spec/00_scope.md: the distinct field bits (rule R9), and how far one
step extends the histories (rules R4, R65). -/

namespace Sys2Proof.Machine

/-! ### Field bits -/

/-- Settles O51: the six bits are the places of six distinct indices under one permutation. -/
theorem fieldBitsAreDistinct : Obligations.FieldBitsAreDistinct := by
  change ([0, 1, 2, 3, 4, 5].map Config.fieldPlace).Nodup
  exact List.Nodup.map Config.fieldPlace.injective (by decide)

/-! ### Growth of the histories -/

/-- What the block has consumed, sent and recorded so far (rules R37 to R39). -/
def histories (s : State) :
    Nat × List Byte × List DiagEvent × List RegEvent × List MapEvent :=
  (s.pos, s.out, s.diag, s.regLog, s.mapLog)

/-- From `s` to `t` the histories only grow, by at most one unit, byte or event in all. -/
structure AddsAtMostOne (s t : State) : Prop where
  count : eventCount t ≤ eventCount s + 1
  out : s.out <+: t.out
  diag : s.diag <+: t.diag
  regLog : s.regLog <+: t.regLog
  mapLog : s.mapLog <+: t.mapLog

/-- Only the histories of the two states count. -/
theorem AddsAtMostOne.congr {s s' t t' : State} (h : AddsAtMostOne s t)
    (hs : histories s' = histories s) (ht : histories t' = histories t) : AddsAtMostOne s' t' := by
  obtain ⟨hcount, hout, hdiag, hreg, hmap⟩ := h
  simp only [histories, Prod.mk.injEq] at hs ht
  constructor <;> simp_all [eventCount]

/-- Equal histories: nothing is added. -/
theorem addsAtMostOne_of_eq {s t : State} (h : histories t = histories s) : AddsAtMostOne s t := by
  have self : AddsAtMostOne s s := by constructor <;> simp
  exact self.congr rfl h

theorem addsAtMostOne_consume (s : State) (rest : List InUnit) :
    AddsAtMostOne s (s.consume rest) := by
  constructor <;> simp [eventCount]; omega

theorem addsAtMostOne_pushOut (s : State) (b : Byte) : AddsAtMostOne s (s.pushOut b) := by
  constructor <;> simp [eventCount]; omega

theorem addsAtMostOne_pushDiag (s : State) (e : DiagEvent) : AddsAtMostOne s (s.pushDiag e) := by
  constructor <;> simp [eventCount]; omega

theorem addsAtMostOne_pushReg (s : State) (e : RegEvent) : AddsAtMostOne s (s.pushReg e) := by
  constructor <;> simp [eventCount]; omega

theorem addsAtMostOne_pushMap (s : State) (e : MapEvent) : AddsAtMostOne s (s.pushMap e) := by
  constructor <;> simp [eventCount]; omega

/-! ### What each operation adds -/

theorem histories_worldMove (s : State) : histories (worldMove s) = histories s := rfl

theorem histories_commitLine (s : State) (line : Line) (l : Level) :
    histories (commitLine s line l) = histories s := by
  cases line <;> rfl

theorem histories_settle (after : Phase) (s : State) : histories (settle after s) = histories s := by
  rw [settle_eq]; rfl

theorem histories_dispatch (cmd : Cmd) (ops : List MicroOp) (after : Phase) (s : State) :
    histories (dispatch cmd ops after s) = histories s := by
  rw [dispatch_eq]; rfl

/-- The answer to `acquire()` is one mapping event. -/
theorem addsAtMostOne_acquire (ok : Bool) (s : State) : AddsAtMostOne s (acquire ok s) := by
  unfold acquire
  split
  · exact (addsAtMostOne_pushMap s .acquired).congr rfl rfl
  · exact (addsAtMostOne_pushMap s .acquireFailed).congr rfl rfl

theorem addsAtMostOne_release (report : Bool) (st : Status) (s : State) :
    AddsAtMostOne s (release report st s) :=
  (addsAtMostOne_pushMap s .released).congr rfl rfl

/-- A lifecycle operation reports one diagnostic event, or exits without one. -/
theorem addsAtMostOne_runLifeOp (op : LifeOp) (rest : List LifeOp) (s : State) :
    AddsAtMostOne s (runLifeOp op rest s) := by
  cases op with
  | reportMapFail => exact (addsAtMostOne_pushDiag s .mapFail).congr rfl rfl
  | reportUnmap => exact (addsAtMostOne_pushDiag s .unmapWithoutMap).congr rfl rfl
  | exit st => exact addsAtMostOne_of_eq rfl

/-- A micro-operation makes one register access, sends one byte, reports one event, or (FIN) does
none of these. -/
theorem runOp_addsAtMostOne {op : MicroOp} {rest : List MicroOp} {s t : State}
    (h : runOp op rest s = .ok t) : AddsAtMostOne s t := by
  have read := addsAtMostOne_pushReg s (.rd s.reg)
  rcases runOp_cases h with ⟨_, _, _, _, rfl⟩ | ⟨line, l, v, _, _, _, rfl⟩ | ⟨_, _, _, _, rfl⟩ |
    ⟨_, _, _, _, rfl⟩ | ⟨_, rfl⟩ | ⟨_, _, rfl⟩ | ⟨v, _, _, rfl⟩ | ⟨b, _, rfl⟩
  · exact read.congr rfl rfl
  · have write := addsAtMostOne_pushReg s (.wr (insertBit (bitOf line) l v))
    exact write.congr rfl (histories_commitLine _ line l)
  · exact read.congr rfl rfl
  · exact read
  · exact addsAtMostOne_of_eq rfl
  · exact read.congr rfl rfl
  · exact (addsAtMostOne_pushOut s (symbol (bitAt v Config.bDataOut))).congr rfl rfl
  · exact (addsAtMostOne_pushDiag s (.unknownCmd b)).congr rfl rfl

theorem runTodo_addsAtMostOne {after : Phase} {s t : State} (h : runTodo after s = .next t) :
    AddsAtMostOne s t := by
  rcases runTodo_cases h with ⟨_, rfl⟩ | ⟨op, rest, s', _, hop, rfl⟩
  · exact addsAtMostOne_of_eq rfl
  · exact (runOp_addsAtMostOne hop).congr rfl (histories_settle after s')

/-- In FETCH a command is only dispatched (rule R100). -/
theorem execCmd_fetch_cases {cmd : Cmd} {s t : State} (hp : s.phase = .fetch)
    (h : execCmd cmd s = .next t) : ∃ ops after, t = dispatch cmd ops after s := by
  obtain ⟨ops, after, heq, -⟩ := execCmd_eq cmd s
  rw [heq, perform_fetch hp] at h
  cases h
  exact ⟨ops, after, rfl⟩

/-- In EXEC a command works on its list (rule R138). -/
theorem execCmd_exec_cases {cmd : Cmd} {s t : State} (hp : s.phase = .exec cmd)
    (h : execCmd cmd s = .next t) : ∃ after, runTodo after s = .next t := by
  obtain ⟨ops, after, heq, -⟩ := execCmd_eq cmd s
  rw [heq, perform_exec hp] at h
  exact ⟨after, h⟩

/-! ### One step -/

/-- The block's own step: a fetch consumes its unit and only dispatches, and every other step runs
one operation. -/
theorem blockStep_addsAtMostOne {tn : Turn} {s t : State} (h : blockStep tn s = .next t) :
    AddsAtMostOne s t := by
  rcases blockStep_cases h with ⟨_, _, rfl⟩ | ⟨op, rest, _, _, rfl⟩ | ⟨_, hrun⟩ | ⟨_, _, rfl⟩ |
    ⟨u, rest, hp, _, hexec⟩ | ⟨cmd, hp, hexec⟩ | ⟨_, _, hrun⟩ | ⟨_, _, hrun⟩ | ⟨st, _, _, rfl⟩
  · exact addsAtMostOne_acquire tn.acquireOk s
  · exact addsAtMostOne_runLifeOp op rest s
  · exact runTodo_addsAtMostOne hrun
  · exact addsAtMostOne_of_eq rfl
  · obtain ⟨ops, after, rfl⟩ := execCmd_fetch_cases (s := s.consume rest) hp hexec
    exact (addsAtMostOne_consume s rest).congr rfl (histories_dispatch _ ops after _)
  · obtain ⟨_, hrun⟩ := execCmd_exec_cases hp hexec
    exact runTodo_addsAtMostOne hrun
  · exact (runTodo_addsAtMostOne hrun).congr rfl rfl
  · exact runTodo_addsAtMostOne hrun
  · exact addsAtMostOne_release tn.unmapReport st s

/-- The outside world's turn and a termination add nothing. -/
theorem step_addsAtMostOne {s t : State} (h : step s = .next t) : AddsAtMostOne s t := by
  rcases step_cases h with ⟨_, _, rfl⟩ | ⟨_, hblock⟩
  · exact addsAtMostOne_of_eq (histories_worldMove s)
  · exact (blockStep_addsAtMostOne hblock).congr (histories_worldMove s).symm rfl

/-- Settles O12, by the cases of one step. -/
theorem stepAddsAtMostOneEvent : Obligations.StepAddsAtMostOneEvent := by
  intro s t h
  obtain ⟨hcount, hout, hdiag, hreg, hmap⟩ := step_addsAtMostOne h
  exact ⟨hcount, hout, hdiag, hreg, hmap⟩

end Sys2Proof.Machine
end

section
/-! PROOFS of the statements from spec/10_state.md, part 1: what one micro-operation and one step of
the machine do to the register, the histories and Driver State. -/

namespace Sys2Proof.Machine

/-! ### One micro-operation, field by field (rule R138) -/

/-- WR, field by field: the written word, its record, and the line's level (rules R54, R55, R132,
R133). -/
theorem runOp_wr {line : Line} {l : Level} {rest : List MicroOp} {s t : State}
    (h : runOp (.wr line l) rest s = .ok t) :
    ∃ v, s.held = some v ∧ t.reg = writeEffect s.reg (insertBit (bitOf line) l v) ∧
      t.regLog = s.regLog ++ [.wr (insertBit (bitOf line) l v)] ∧ t.held = none ∧
      t.first = s.first ∧ t.out = s.out ∧
      ∀ line', lastDriven t line' =
        if line' = line ∧ line ≠ .enable then some l else lastDriven s line' := by
  have hcases := runOp_cases h
  simp only [reduceCtorEq, false_and, exists_false, false_or, or_false, MicroOp.wr.injEq] at hcases
  obtain ⟨_, _, v, ⟨rfl, rfl⟩, hv, -, rfl⟩ := hcases
  refine ⟨v, hv, ?_, ?_, ?_, ?_, ?_, fun line' => lastDriven_commitLine _ line line' l⟩ <;>
    rw [commitLine_eq] <;> rfl

/-- Only WR writes the register, and it records the written word (rule R55). -/
theorem runOp_reg {op : MicroOp} {rest : List MicroOp} {s t : State}
    (h : runOp op rest s = .ok t) :
    t.reg = s.reg ∨ ∃ v, t.reg = writeEffect s.reg v ∧ t.regLog = s.regLog ++ [.wr v] := by
  rcases runOp_cases h with ⟨_, _, _, _, rfl⟩ | ⟨_, _, _, rfl, _⟩ | ⟨_, _, _, _, rfl⟩ |
    ⟨_, _, _, _, rfl⟩ | ⟨_, rfl⟩ | ⟨_, _, rfl⟩ | ⟨_, _, _, rfl⟩ | ⟨_, _, rfl⟩
  · exact .inl rfl
  · obtain ⟨v, -, hreg, hlog, -⟩ := runOp_wr h
    exact .inr ⟨_, hreg, hlog⟩
  · exact .inl rfl
  · exact .inl rfl
  · exact .inl rfl
  · exact .inl rfl
  · exact .inl rfl
  · exact .inl rfl

/-- An operation that accesses the register needs the mapping (rules R43, R52, R53). -/
theorem runOp_regLog {op : MicroOp} {rest : List MicroOp} {s t : State}
    (h : runOp op rest s = .ok t) : t.regLog = s.regLog ∨ s.mapped = true := by
  rcases runOp_cases h with ⟨_, _, _, hm, _⟩ | ⟨_, _, _, _, _, hm, _⟩ | ⟨_, _, hm, _⟩ |
    ⟨_, _, hm, _⟩ | ⟨_, rfl⟩ | ⟨_, hm, _⟩ | ⟨_, _, _, rfl⟩ | ⟨_, _, rfl⟩
  · exact .inr hm
  · exact .inr hm
  · exact .inr hm
  · exact .inr hm
  · exact .inl rfl
  · exact .inr hm
  · exact .inl rfl
  · exact .inl rfl

/-- Only EMIT writes the response stream: one symbol (rule R150). -/
theorem runOp_out {op : MicroOp} {rest : List MicroOp} {s t : State}
    (h : runOp op rest s = .ok t) : t.out = s.out ∨ ∃ l, t.out = s.out ++ [symbol l] := by
  rcases runOp_cases h with ⟨_, _, _, _, rfl⟩ | ⟨_, _, _, rfl, _⟩ | ⟨_, _, _, _, rfl⟩ |
    ⟨_, _, _, _, rfl⟩ | ⟨_, rfl⟩ | ⟨_, _, rfl⟩ | ⟨_, _, _, rfl⟩ | ⟨_, _, rfl⟩
  · exact .inl rfl
  · obtain ⟨_, -, -, -, -, -, hout, -⟩ := runOp_wr h
    exact .inl hout
  · exact .inl rfl
  · exact .inl rfl
  · exact .inl rfl
  · exact .inl rfl
  · exact .inr ⟨_, rfl⟩
  · exact .inl rfl

/-- An operation drops itself from the list, but for a poll that goes on. -/
theorem runOp_todo {op : MicroOp} {rest : List MicroOp} {s t : State}
    (h : runOp op rest s = .ok t) : t.todo = rest ∨ (∃ e, op = .poll e) ∧ t.todo = s.todo := by
  rcases runOp_cases h with ⟨_, _, _, _, rfl⟩ | ⟨_, _, _, _, _, _, rfl⟩ | ⟨_, _, _, _, rfl⟩ |
    ⟨e, he, _, _, rfl⟩ | ⟨_, rfl⟩ | ⟨_, _, rfl⟩ | ⟨_, _, _, rfl⟩ | ⟨_, _, rfl⟩
  · exact .inl rfl
  · exact .inl rfl
  · exact .inl rfl
  · exact .inr ⟨⟨e, he⟩, rfl⟩
  · exact .inl rfl
  · exact .inl rfl
  · exact .inl rfl
  · exact .inl rfl

/-- Driver State with the same levels and the same `first` reads the same on every line. -/
theorem SameDriver.lastDriven_eq {s t : State} (h : SameDriver s t) (line : Line) :
    lastDriven t line = lastDriven s line := by
  obtain ⟨-, hclk, hmode, hdata⟩ := h
  cases line <;> simp [lastDriven, hclk, hmode, hdata]

theorem SameDriver.trans {s t u : State} (h : SameDriver s t) (h' : SameDriver t u) :
    SameDriver s u := by
  obtain ⟨hfirst, hclk, hmode, hdata⟩ := h
  obtain ⟨hfirst', hclk', hmode', hdata'⟩ := h'
  exact ⟨hfirst'.trans hfirst, hclk'.trans hclk, hmode'.trans hmode, hdata'.trans hdata⟩

/-- The operation leaves Driver State alone: it is no FIN, and a write of ENABLE if one at all. -/
def SparesDriver (op : MicroOp) : Prop := op ≠ .fin ∧ ∀ line l, op = .wr line l → line = .enable

/-- Only FIN and the writes of a line other than ENABLE change Driver State (rules R132 to R135,
R160). -/
theorem runOp_driver {op : MicroOp} {rest : List MicroOp} {s t : State}
    (h : runOp op rest s = .ok t) :
    (SparesDriver op ∧ SameDriver s t) ∨
    (op = .fin ∧ t.first = false ∧ ∀ line, lastDriven t line = lastDriven s line) ∨
    ∃ line l, op = .wr line l ∧ line ≠ .enable ∧ t.first = s.first ∧
      ∀ line', lastDriven t line' = if line' = line then some l else lastDriven s line' := by
  rcases runOp_cases h with ⟨_, _, rfl, _, rfl⟩ | ⟨line, l, _, rfl, _⟩ | ⟨_, rfl, _, _, rfl⟩ |
    ⟨_, rfl, _, _, rfl⟩ | ⟨hop, rfl⟩ | ⟨rfl, _, rfl⟩ | ⟨_, rfl, _, rfl⟩ | ⟨_, rfl, rfl⟩
  · exact .inl ⟨⟨nofun, nofun⟩, rfl, rfl, rfl, rfl⟩
  · obtain ⟨_, -, -, -, -, hfirst, -, hlast⟩ := runOp_wr h
    by_cases hl : line = .enable
    · have same (line') : lastDriven t line' = lastDriven s line' := by simp [hlast, hl]
      exact .inl ⟨⟨nofun, fun _ _ hop => by cases hop; exact hl⟩, hfirst, same .clock, same .mode,
        same .data⟩
    · exact .inr (.inr ⟨line, l, rfl, hl, hfirst, fun line' => by simp [hlast, hl]⟩)
  · exact .inl ⟨⟨nofun, nofun⟩, rfl, rfl, rfl, rfl⟩
  · exact .inl ⟨⟨nofun, nofun⟩, rfl, rfl, rfl, rfl⟩
  · exact .inr (.inl ⟨hop, rfl, fun line => by cases line <;> rfl⟩)
  · exact .inl ⟨⟨nofun, nofun⟩, rfl, rfl, rfl, rfl⟩
  · exact .inl ⟨⟨nofun, nofun⟩, rfl, rfl, rfl, rfl⟩
  · exact .inl ⟨⟨nofun, nofun⟩, rfl, rfl, rfl, rfl⟩

/-! ### One step -/

/-- The fields that only micro-operations write, but for the environment's bits of the register. -/
def opFields (s : State) :
    (Level × Option Level × Option Level × Option Level) × Option Word × Word × List Byte ×
      List RegEvent :=
  ((s.first, s.lastClk, s.lastMode, s.lastData), s.held, s.reg, s.out, s.regLog)

theorem opFields_acquire (ok : Bool) (s : State) : opFields (acquire ok s) = opFields s := by
  cases ok <;> rfl

theorem opFields_runLifeOp (op : LifeOp) (rest : List LifeOp) (s : State) :
    opFields (runLifeOp op rest s) = opFields s := by
  cases op <;> rfl

theorem opFields_dispatch (cmd : Cmd) (ops : List MicroOp) (after : Phase) (s : State) :
    opFields (dispatch cmd ops after s) = opFields s := by
  rw [dispatch_eq]; rfl

theorem opFields_settle (after : Phase) (s : State) : opFields (settle after s) = opFields s := by
  rw [settle_eq]; rfl

theorem sameDriver_worldMove (s : State) : SameDriver s (worldMove s) := by
  simp [SameDriver]

theorem sameDriver_of_opFields {s t : State} (h : opFields t = opFields s) : SameDriver s t := by
  simp only [opFields, Prod.mk.injEq] at h
  exact h.1

/-- From `s` to `t` the block runs `op`, the first pending micro-operation, and moves on if it was
the last. -/
def RunsOp (s t : State) (op : MicroOp) (rest : List MicroOp) : Prop :=
  pendingOps s = op :: rest ∧ ∃ s' after,
    runOp op rest (s.setTodo (op :: rest)) = .ok s' ∧ t = settle after s'

/-- But for the list that STOP loads, the pending list is `todo`. -/
theorem pendingOps_eq_todo {s : State} (h : s.phase ≠ .stop ∨ s.todo ≠ []) :
    pendingOps s = s.todo := by
  unfold pendingOps
  rw [if_neg (by tauto)]

/-- STOP loads the disable of the TAP first (rule R164). -/
theorem pendingOps_stop {s : State} (hp : s.phase = .stop) (ht : s.todo = []) :
    pendingOps s = tapEnableOps false := by
  simp [pendingOps, hp, ht]

theorem pendingOps_worldMove (s : State) : pendingOps (worldMove s) = pendingOps s := by
  by_cases h : s.phase = .stop ∧ s.todo = [] <;> simp [pendingOps, h]

/-- Working on the pending list is moving on, or running its first operation. -/
theorem runTodo_runsOp {s t : State} {after : Phase}
    (h : runTodo after (s.setTodo (pendingOps s)) = .next t) :
    opFields t = opFields s ∨ ∃ op rest, RunsOp s t op rest := by
  rcases runTodo_cases h with ⟨_, rfl⟩ | ⟨op, rest, s', htodo, hop, rfl⟩
  · exact .inl rfl
  · have hpend : pendingOps s = op :: rest := htodo
    exact .inr ⟨op, rest, hpend, s', after, hpend ▸ hop, rfl⟩

/-- The block's own step runs the first pending micro-operation, or leaves alone what only
micro-operations write. -/
theorem blockStep_runsOp {tn : Turn} {s t : State} (h : blockStep tn s = .next t) :
    opFields t = opFields s ∨ ∃ op rest, RunsOp s t op rest := by
  have runs {after} (hpend : s.phase ≠ .stop ∨ s.todo ≠ [])
      (hrun : runTodo after s = .next t) :
      opFields t = opFields s ∨ ∃ op rest, RunsOp s t op rest := by
    refine runTodo_runsOp (after := after) ?_
    rw [pendingOps_eq_todo hpend]
    exact hrun
  rcases blockStep_cases h with ⟨_, _, rfl⟩ | ⟨op, rest, _, _, rfl⟩ | ⟨hp, hrun⟩ | ⟨_, _, rfl⟩ |
    ⟨u, rest, hp, _, hexec⟩ | ⟨cmd, hp, hexec⟩ | ⟨hp, ht, hrun⟩ | ⟨_, ht, hrun⟩ | ⟨st, _, _, rfl⟩
  · exact .inl (opFields_acquire tn.acquireOk s)
  · exact .inl (opFields_runLifeOp op rest s)
  · exact runs (.inl (by simp [hp])) hrun
  · exact .inl rfl
  · obtain ⟨ops, after, rfl⟩ := execCmd_fetch_cases (s := s.consume rest) hp hexec
    exact .inl (opFields_dispatch _ ops after _)
  · obtain ⟨after, hrun⟩ := execCmd_exec_cases hp hexec
    exact runs (.inl (by simp [hp])) hrun
  · rw [← pendingOps_stop hp ht] at hrun
    exact runTodo_runsOp hrun
  · exact runs (.inr ht) hrun
  · exact .inl rfl

/-- The same for a step of the machine, after the outside world's turn. -/
theorem step_runsOp {s t : State} (h : step s = .next t) :
    opFields t = opFields (worldMove s) ∨ ∃ op rest, RunsOp (worldMove s) t op rest := by
  rcases step_cases h with ⟨_, _, rfl⟩ | ⟨_, hblock⟩
  · exact .inl rfl
  · exact blockStep_runsOp hblock

end Sys2Proof.Machine
end

section
/-! PROOFS of the statements from spec/10_state.md, part 2: the register and its lines (rules R21 to
R27), and the response stream (rule R41). -/

namespace Sys2Proof.Machine

/-! ### Software-driven bits and the mapping -/

/-- A write gives a software-driven bit the written word's value (rules R25, R55). -/
theorem bitAt_writeEffect_soft {i : BitIdx} (h : i ∈ softBits) (reg v : Word) :
    bitAt (writeEffect reg v) i = bitAt v i := by
  rw [bitAt_writeEffect, if_neg (softBits_not_input h)]

/-- Settles O10: the turn leaves the software-driven bits alone, so the step runs a micro-operation,
and only WR writes the register. -/
theorem softwareBitsChangeOnlyByWrites : Obligations.SoftwareBitsChangeOnlyByWrites := by
  intro s t h i hi hne
  rcases step_runsOp h with hf | ⟨op, rest, _, s', after, hop, rfl⟩
  · simp only [opFields, Prod.mk.injEq] at hf
    obtain ⟨-, -, hreg, -⟩ := hf
    exact absurd (by rw [hreg, worldMove_softBit hi]) hne
  · rw [settle_eq, State.setPhase_reg] at hne
    rw [settle_eq, State.setPhase_reg, State.setPhase_regLog]
    rcases runOp_reg hop with hreg | ⟨v, hreg, hlog⟩
    · rw [hreg, State.setTodo_reg, worldMove_softBit hi] at hne
      exact absurd rfl hne
    · rw [State.setTodo_regLog, worldMove_regLog] at hlog
      exact ⟨v, hlog, by rw [hreg, bitAt_writeEffect_soft hi]⟩

/-- Settles O13: only a micro-operation extends the register history, and it needs the mapping. -/
theorem registerAccessOnlyWhileMapped : Obligations.RegisterAccessOnlyWhileMapped := by
  intro s t h hne
  rcases step_runsOp h with hf | ⟨op, rest, _, s', after, hop, rfl⟩
  · simp only [opFields, Prod.mk.injEq] at hf
    obtain ⟨-, -, -, -, hlog⟩ := hf
    rw [worldMove_regLog] at hlog
    exact absurd hlog hne
  · rw [settle_eq, State.setPhase_regLog] at hne
    have hlog := runOp_regLog hop
    rw [State.setTodo_regLog, worldMove_regLog, State.setTodo_mapped, worldMove_mapped] at hlog
    exact hlog.resolve_left hne

/-! ### The line mirror -/

/-- The mirror speaks of the last-driven levels, the software-driven bits, and the held word, which
may be dropped or read again. -/
theorem LineMirror.congr {s t : State} (h : LineMirror s)
    (hlast : ∀ line, lastDriven t line = lastDriven s line)
    (hreg : ∀ i ∈ softBits, bitAt t.reg i = bitAt s.reg i)
    (hheld : t.held = s.held ∨ t.held = none ∨ t.held = some t.reg) : LineMirror t := by
  obtain ⟨hline, hword⟩ := h
  refine ⟨fun line l hl => ?_, fun v hv i hi => ?_⟩
  · rw [hreg _ (bitOf_mem_softBits line)]
    exact hline line l (hlast line ▸ hl)
  · rcases hheld with hh | hh | hh
    · rw [hreg i hi]
      exact hword v (hh ▸ hv) i hi
    · simp [hh] at hv
    · simp only [hh, Option.some.injEq] at hv
      rw [hv]

theorem lineMirror_worldMove {s : State} (h : LineMirror s) : LineMirror (worldMove s) :=
  h.congr (sameDriver_worldMove s).lastDriven_eq (fun _ hi => worldMove_softBit hi)
    (.inl (worldMove_held s))

theorem LineMirror.of_opFields {s t : State} (h : LineMirror s)
    (hf : opFields t = opFields s) : LineMirror t := by
  have hdriver := sameDriver_of_opFields hf
  simp only [opFields, Prod.mk.injEq] at hf
  obtain ⟨-, hheld, hreg, -⟩ := hf
  exact h.congr hdriver.lastDriven_eq (fun i _ => by rw [hreg]) (.inl hheld)

/-- WR puts the line's level in the register and in Driver State together, and takes the other lines
from the held word, which mirrors them (rules R54, R55, R132, R133). -/
theorem runOp_wr_lineMirror {line : Line} {l : Level} {rest : List MicroOp} {s t : State}
    (hm : LineMirror s) (h : runOp (.wr line l) rest s = .ok t) : LineMirror t := by
  obtain ⟨hline, hword⟩ := hm
  obtain ⟨v, hv, hreg, -, hheld, -, -, hlast⟩ := runOp_wr h
  refine ⟨fun line' l' hl => ?_, fun w hw => by simp [hheld] at hw⟩
  rw [hreg, bitAt_writeEffect_soft (bitOf_mem_softBits line'), bitAt_insertBit]
  rw [hlast] at hl
  by_cases heq : line' = line
  · subst heq
    cases line' <;> simp_all [lastDriven]
  · simp only [heq, bitOf_eq_iff, false_and, if_false] at hl ⊢
    rw [hword v hv _ (bitOf_mem_softBits line')]
    exact hline line' l' hl

/-- A micro-operation keeps the mirror: RD and SAMPLE take the register as the held word, EMIT drops
it, and only WR writes a line. -/
theorem runOp_lineMirror {op : MicroOp} {rest : List MicroOp} {s t : State} (hm : LineMirror s)
    (h : runOp op rest s = .ok t) : LineMirror t := by
  have same {u : State} (hd : SameDriver s u) (hreg : u.reg = s.reg)
      (hheld : u.held = s.held ∨ u.held = none ∨ u.held = some u.reg) : LineMirror u :=
    hm.congr hd.lastDriven_eq (fun _ _ => by rw [hreg]) hheld
  rcases runOp_cases h with ⟨_, _, _, _, rfl⟩ | ⟨_, _, _, rfl, _⟩ | ⟨_, _, _, _, rfl⟩ |
    ⟨_, _, _, _, rfl⟩ | ⟨_, rfl⟩ | ⟨_, _, rfl⟩ | ⟨_, _, _, rfl⟩ | ⟨_, _, rfl⟩
  · exact same ⟨rfl, rfl, rfl, rfl⟩ rfl (.inr (.inr rfl))
  · exact runOp_wr_lineMirror hm h
  · exact same ⟨rfl, rfl, rfl, rfl⟩ rfl (.inl rfl)
  · exact same ⟨rfl, rfl, rfl, rfl⟩ rfl (.inl rfl)
  · exact hm.congr (fun line => by cases line <;> rfl) (fun _ _ => rfl) (.inl rfl)
  · exact same ⟨rfl, rfl, rfl, rfl⟩ rfl (.inr (.inr rfl))
  · exact same ⟨rfl, rfl, rfl, rfl⟩ rfl (.inr (.inl rfl))
  · exact same ⟨rfl, rfl, rfl, rfl⟩ rfl (.inl rfl)

/-- Settles O55: the turn keeps the mirror, and so does the micro-operation that runs, if any. -/
theorem lineMirrorIsKept : Obligations.LineMirrorIsKept := by
  intro s t hm h
  have hmove := lineMirror_worldMove hm
  rcases step_runsOp h with hf | ⟨op, rest, _, s', after, hop, rfl⟩
  · exact hmove.of_opFields hf
  · have htodo : LineMirror ((worldMove s).setTodo (op :: rest)) := hmove.of_opFields rfl
    exact (runOp_lineMirror htodo hop).of_opFields (opFields_settle after s')

/-! ### The response stream -/

/-- Settles O58: only EMIT extends the response stream, by the symbol of a level. -/
theorem outputAlphabetIsKept : Obligations.OutputAlphabetIsKept := by
  intro s t hbits h
  have hout : t.out = s.out ∨ ∃ l, t.out = s.out ++ [symbol l] := by
    rcases step_runsOp h with hf | ⟨op, rest, _, s', after, hop, rfl⟩
    · simp only [opFields, Prod.mk.injEq] at hf
      obtain ⟨-, -, -, hout, -⟩ := hf
      rw [worldMove_out] at hout
      exact .inl hout
    · have hout := runOp_out hop
      rw [State.setTodo_out, worldMove_out] at hout
      rwa [settle_eq, State.setPhase_out]
  rcases hout with hout | ⟨l, hout⟩
  · unfold OutputBits
    rwa [hout]
  · intro b hb
    rw [hout, List.mem_append, List.mem_singleton] at hb
    rcases hb with hb | rfl
    · exact hbits b hb
    · cases l <;> simp [symbol]

end Sys2Proof.Machine
end

section
/-! PROOFS of the statements from spec/10_state.md, part 3: Driver State (rules R30 to R34,
R141). -/

namespace Sys2Proof.Machine

/-! ### Only WRITE changes Driver State -/

/-- A WRITE is running. -/
def InWrite (s : State) : Prop := ∃ c m d, s.phase = .exec (.instr (.write c m d))

theorem sparesDriver_of_mem_tapEnableOps {on : Level} {op : MicroOp} (h : op ∈ tapEnableOps on) :
    SparesDriver op := by
  simp only [tapEnableOps, List.mem_cons, List.not_mem_nil, or_false] at h
  rcases h with rfl | rfl <;> simp [SparesDriver]

theorem inWrite_worldMove_iff (s : State) : InWrite (worldMove s) ↔ InWrite s := by
  simp [InWrite]

/-- What is left of a command that is no WRITE leaves Driver State alone (rule R138). -/
theorem LeftOf.sparesDriver {cmd : Cmd} {todo : List MicroOp} {op : MicroOp} (h : LeftOf cmd todo)
    (hw : ∀ c m d, cmd ≠ .instr (.write c m d)) (hop : op ∈ todo) : SparesDriver op := by
  cases cmd with
  | eos => exact h.elim
  | invalid b =>
    have hmem : op ∈ [.diagu b] := h.1.subset hop
    simp only [List.mem_singleton] at hmem
    subst hmem; simp [SparesDriver]
  | instr i =>
    cases i with
    | write c m d => exact absurd rfl (hw c m d)
    | read =>
      have hmem : op ∈ [.sample, .emit] := List.IsSuffix.subset h hop
      simp only [List.mem_cons, List.not_mem_nil, or_false] at hmem
      rcases hmem with rfl | rfl <;> simp [SparesDriver]
    | quit => exact h.elim
    | blinkUpper => exact h.elim
    | blinkLower => exact h.elim
    | resetR => exact h.elim
    | resetR1 => exact h.elim
    | resetR2 => exact h.elim
    | resetR3 => exact h.elim

/-- Outside a WRITE no pending operation touches Driver State: START and STOP drive ENABLE only. -/
theorem SessionInv.sparesDriver {s : State} {op : MicroOp} (h : SessionInv s) (hw : ¬ InWrite s)
    (hop : op ∈ pendingOps s) : SparesDriver op := by
  obtain ⟨-, hphase⟩ := h
  unfold PhaseHolds at hphase
  by_cases hstop : s.phase = .stop ∧ s.todo = []
  · rw [pendingOps_stop hstop.1 hstop.2] at hop
    exact sparesDriver_of_mem_tapEnableOps hop
  rw [pendingOps_eq_todo (by tauto)] at hop
  cases hp : s.phase with
  | map =>
    simp only [hp] at hphase
    obtain ⟨-, htodo, -⟩ := hphase
    simp [htodo] at hop
  | start =>
    simp only [hp] at hphase
    obtain ⟨-, -, -, -, -, -, -, hsuffix⟩ := hphase
    exact sparesDriver_of_mem_tapEnableOps (hsuffix.subset hop)
  | fetch =>
    simp only [hp] at hphase
    obtain ⟨-, -, -, -, htodo⟩ := hphase
    simp [htodo] at hop
  | exec cmd =>
    simp only [hp] at hphase
    obtain ⟨-, -, -, -, -, hleft⟩ := hphase
    exact hleft.sparesDriver (fun c m d hc => hw ⟨c, m, d, hc ▸ hp⟩) hop
  | stop =>
    simp only [hp] at hphase
    obtain ⟨-, -, -, -, htodo | htodo⟩ := hphase
    · exact absurd ⟨hp, htodo⟩ hstop
    · have hmem : op ∈ tapEnableOps false := by
        rw [htodo] at hop
        exact List.mem_cons_of_mem _ hop
      exact sparesDriver_of_mem_tapEnableOps hmem
  | release st =>
    simp only [hp] at hphase
    simp [hphase.1] at hop
  | exited st =>
    simp only [hp] at hphase
    simp [hphase.1] at hop

theorem runOp_sameDriver {op : MicroOp} {rest : List MicroOp} {s t : State}
    (hs : SparesDriver op) (h : runOp op rest s = .ok t) : SameDriver s t := by
  obtain ⟨hfin, hwr⟩ := hs
  rcases runOp_driver h with ⟨-, hsame⟩ | ⟨hop, -⟩ | ⟨line, l, hop, hl, -⟩
  · exact hsame
  · exact absurd hop hfin
  · exact absurd (hwr line l hop) hl

/-- Outside a WRITE a step leaves Driver State alone. -/
theorem step_sameDriver {s t : State} (hinv : SessionInv s) (hw : ¬ InWrite s)
    (h : step s = .next t) : SameDriver s t := by
  rcases step_runsOp h with hf | ⟨op, rest, hpend, s', after, hop, rfl⟩
  · exact (sameDriver_worldMove s).trans (sameDriver_of_opFields hf)
  · rw [pendingOps_worldMove] at hpend
    have hspares : SparesDriver op := hinv.sparesDriver hw (by simp [hpend])
    have hload : SameDriver (worldMove s) ((worldMove s).setTodo (op :: rest)) :=
      sameDriver_of_opFields rfl
    have hsettle := sameDriver_of_opFields (opFields_settle after s')
    exact (((sameDriver_worldMove s).trans hload).trans (runOp_sameDriver hspares hop)).trans
      hsettle

/-- Settles O52: every step outside a WRITE leaves Driver State alone. -/
theorem onlyWriteChangesDriverState : Obligations.OnlyWriteChangesDriverState := by
  intro s t hinv h hne
  by_contra hw
  exact hne (step_sameDriver hinv hw h)

/-! ### Steps into and inside a WRITE -/

/-- A step over the list stays in its phase or moves on to the one after it. -/
theorem runTodo_phase {after : Phase} {s t : State} (h : runTodo after s = .next t) :
    t.phase = s.phase ∨ t.phase = after := by
  rcases runTodo_cases h with ⟨_, rfl⟩ | ⟨op, rest, s', _, hop, rfl⟩
  · exact .inr rfl
  · rw [settle_eq, State.setPhase_phase, (runOp_frame hop).1]
    split_ifs <;> simp

/-- A running command stays or moves on to FETCH or STOP (rules R138, R164). -/
theorem execCmd_exec_phase {cmd : Cmd} {s t : State} (hp : s.phase = .exec cmd)
    (h : execCmd cmd s = .next t) :
    t.phase = .exec cmd ∨ t.phase = .fetch ∨ t.phase = .stop := by
  obtain ⟨ops, after, heq, hafter⟩ := execCmd_eq cmd s
  have hafter : after = .fetch ∨ after = .stop := by
    rcases hafter with ⟨_, _, _, _, _, rfl⟩ | ⟨_, _, rfl⟩ | ⟨_, _, _, rfl⟩ | ⟨_, _, rfl⟩ |
      ⟨_, _, rfl⟩ <;> simp
  rw [heq, perform_exec hp] at h
  rcases runTodo_phase h with ht | ht
  · exact .inl (ht.trans hp)
  · exact .inr (ht ▸ hafter)

/-- A WRITE is entered only by its dispatch, which lists what Driver State calls for (rules R100,
R138). -/
theorem execCmd_enters_write {cmd : Cmd} {c m d : Level} {s t : State} (hp : s.phase = .fetch)
    (h : execCmd cmd s = .next t) (ht : t.phase = .exec (.instr (.write c m d))) :
    t.todo = expandWrite c m d s := by
  obtain ⟨ops, after, heq, hcmd⟩ := execCmd_eq cmd s
  rw [heq, perform_fetch hp] at h
  cases h
  rw [dispatch_eq] at ht ⊢
  simp only [State.setPhase_phase] at ht
  rcases hcmd with ⟨_, _, _, rfl, rfl, rfl⟩ | ⟨rfl, rfl, rfl⟩ | ⟨_, rfl, rfl, rfl⟩ |
    ⟨_, rfl, rfl⟩ | ⟨_, rfl, rfl⟩
  · split_ifs at ht
    cases ht
    rfl
  all_goals simp at ht

theorem expandWrite_congr {s t : State} (h : SameDriver s t) (c m d : Level) :
    expandWrite c m d t = expandWrite c m d s := by
  simp only [expandWrite, mustWrite, h.1, h.lastDriven_eq]

theorem acquire_phase (ok : Bool) (s : State) :
    (acquire ok s).phase = s.phase ∨ (acquire ok s).phase = .start := by
  cases ok
  · exact .inl rfl
  · exact .inr rfl

/-- Lifecycle operations end the session. -/
theorem runLifeOp_phase (op : LifeOp) (rest : List LifeOp) (s : State) :
    (runLifeOp op rest s).phase = s.phase ∨ ∃ st,
      (runLifeOp op rest s).phase = .release st ∨ (runLifeOp op rest s).phase = .exited st := by
  cases op with
  | reportMapFail => exact .inr ⟨.failure, .inl rfl⟩
  | reportUnmap => exact .inl rfl
  | exit st => exact .inr ⟨st, .inr rfl⟩

/-- A block step that ends in a WRITE and does not start in it is a fetch of it. -/
theorem blockStep_enters_write {tn : Turn} {c m d : Level} {s t : State}
    (h : blockStep tn s = .next t) (hw : ¬ InWrite s)
    (ht : t.phase = .exec (.instr (.write c m d))) : t.todo = expandWrite c m d s := by
  have hs : t.phase ≠ s.phase := fun hp => hw ⟨c, m, d, hp ▸ ht⟩
  have elsewhere {p : Phase} (hc : t.phase = s.phase ∨ t.phase = p)
      (hp : p ≠ .exec (.instr (.write c m d))) : t.todo = expandWrite c m d s :=
    (hc.elim hs fun hc => hp (hc ▸ ht)).elim
  rcases blockStep_cases h with ⟨_, _, rfl⟩ | ⟨op, rest, _, _, rfl⟩ | ⟨_, hrun⟩ | ⟨_, _, rfl⟩ |
    ⟨u, rest, hp, _, hexec⟩ | ⟨cmd, hp, hexec⟩ | ⟨_, _, hrun⟩ | ⟨_, _, hrun⟩ | ⟨st, _, _, rfl⟩
  · exact elsewhere (acquire_phase tn.acquireOk s) nofun
  · rcases runLifeOp_phase op rest s with hc | ⟨st, hc | hc⟩
    · exact absurd hc hs
    · exact elsewhere (.inr hc) nofun
    · exact elsewhere (.inr hc) nofun
  · exact elsewhere (runTodo_phase hrun) nofun
  · exact absurd rfl hs
  · rw [execCmd_enters_write (s := s.consume rest) hp hexec ht]
    exact expandWrite_congr (sameDriver_of_opFields rfl) c m d
  · rcases execCmd_exec_phase hp hexec with hc | hc | hc
    · exact absurd (hc.trans hp.symm) hs
    · exact elsewhere (.inr hc) nofun
    · exact elsewhere (.inr hc) nofun
  · have hstop := runTodo_phase hrun
    exact elsewhere hstop nofun
  · exact elsewhere (runTodo_phase hrun) nofun
  · exact absurd rfl hs

/-- The same for a step of the machine: the turn before it leaves Driver State alone. -/
theorem step_enters_write {c m d : Level} {s t : State} (h : step s = .next t)
    (hw : ¬ InWrite s) (ht : t.phase = .exec (.instr (.write c m d))) :
    t.todo = expandWrite c m d s := by
  rcases step_cases h with ⟨_, _, rfl⟩ | ⟨_, hblock⟩
  · rw [State.setKilled_phase, worldMove_phase] at ht
    exact absurd ⟨c, m, d, ht⟩ hw
  · rw [← inWrite_worldMove_iff] at hw
    rw [blockStep_enters_write hblock hw ht, expandWrite_congr (sameDriver_worldMove s)]

/-! ### Driver State is known -/

/-- Every line of WRITE c,m,d whose write is not in the list has its requested level (rule R141). -/
def Served (c m d : Level) (todo : List MicroOp) (s : State) : Prop :=
  ∀ line, line ≠ .enable → .wr line (requested c m d line) ∉ todo →
    lastDriven s line = some (requested c m d line)

/-- With `first = 0` every line of WRITE has a last-driven level (rules R30, R31). -/
def LevelsKnown (s : State) : Prop :=
  s.first = false → ∀ line, line ≠ .enable → lastDriven s line ≠ none

theorem driverKnown_inWrite_iff {c m d : Level} {s : State}
    (hp : s.phase = .exec (.instr (.write c m d))) :
    DriverKnown s ↔ LevelsKnown s ∧ Served c m d s.todo s := by
  simp only [DriverKnown, hp, LevelsKnown, Served]

theorem driverKnown_outside_iff {s : State} (hw : ¬ InWrite s) :
    DriverKnown s ↔ LevelsKnown s ∧ (s.first = true → ∀ line, lastDriven s line = none) := by
  unfold DriverKnown LevelsKnown
  split
  · rename_i c m d hp
    exact absurd ⟨c, m, d, hp⟩ hw
  · rfl

theorem LevelsKnown.congr {s t : State} (h : LevelsKnown s) (hd : SameDriver s t) :
    LevelsKnown t := fun hf line hl => by
  rw [hd.lastDriven_eq]
  exact h (hd.1 ▸ hf) line hl

/-- Outside a WRITE only Driver State counts. -/
theorem DriverKnown.outside_congr {s t : State} (h : DriverKnown s) (hs : ¬ InWrite s)
    (ht : ¬ InWrite t) (hd : SameDriver s t) : DriverKnown t := by
  rw [driverKnown_outside_iff hs] at h
  rw [driverKnown_outside_iff ht]
  obtain ⟨hlevels, hnone⟩ := h
  refine ⟨hlevels.congr hd, fun hf line => ?_⟩
  rw [hd.lastDriven_eq]
  exact hnone (hd.1 ▸ hf) line

/-- The dispatch of a WRITE leaves out exactly the lines that are at their level already (R131). -/
theorem served_expandWrite (c m d : Level) (s : State) : Served c m d (expandWrite c m d s) s := by
  intro line hl hmem
  have hmust := mustWrite_of_not_mem hl hmem
  simp only [mustWrite, Bool.or_eq_false_iff, bne_eq_false_iff_eq] at hmust
  exact hmust.2

/-- The operation at the head of a WRITE serves its line, and only FIN is last (rule R138). -/
theorem driverOps_head {o : MdOrder} {w : Line → Bool} {c m d : Level} {op : MicroOp}
    {rest : List MicroOp} (h : op :: rest <:+ driverOps o w c m d) :
    (op = .fin ∧ rest = []) ∨
      (op ≠ .fin ∧ rest ≠ [] ∧ ∀ line l, op = .wr line l → l = requested c m d line) := by
  rcases driverOps_suffix_cases h with ⟨_, _, rfl, _, rfl⟩ | ⟨line, rfl, _, hrest, _⟩ |
    ⟨rfl, rfl⟩ | ⟨rfl, rfl⟩
  · simp
  · refine .inr ⟨by simp, hrest, fun line' l hop => ?_⟩
    cases hop; rfl
  · simp
  · simp

/-- FIN ends a WRITE with every line served, so Driver State is known (rules R135, R141). -/
theorem fin_driverKnown {c m d : Level} {s s' : State} (hs : Served c m d [.fin] s)
    (h : runOp .fin [] s = .ok s') : DriverKnown (settle .fetch s') := by
  obtain ⟨⟨hspares, -⟩, -⟩ | ⟨-, hfirst, hlast⟩ | ⟨_, _, hop, -⟩ := runOp_driver h
  · exact absurd rfl hspares
  · have htodo : s'.todo = [] := (runOp_todo h).elim id nofun
    have hsettle : settle .fetch s' = s'.setPhase .fetch := by simp [settle_eq, htodo]
    rw [hsettle, driverKnown_outside_iff (fun ⟨_, _, _, hp⟩ => by cases hp)]
    refine ⟨fun _ line hl => ?_, fun hf => by simp [hfirst] at hf⟩
    have hlevel := (hlast line).trans (hs line hl (by simp))
    have hphase : lastDriven (s'.setPhase .fetch) line = lastDriven s' line := by cases line <;> rfl
    simp [hphase, hlevel]
  · cases hop

/-- An operation of a WRITE other than FIN keeps every line served: WR drops itself from the list as
it gives its line the requested level. -/
theorem runOp_served {c m d : Level} {op : MicroOp} {rest : List MicroOp} {s s' : State}
    (hs : Served c m d (op :: rest) s) (htodo : s.todo = op :: rest) (hfin : op ≠ .fin)
    (hwr : ∀ line l, op = .wr line l → l = requested c m d line)
    (h : runOp op rest s = .ok s') : Served c m d s'.todo s' := by
  intro line hl hmem
  have hrest : .wr line (requested c m d line) ∉ rest := by
    rcases runOp_todo h with ht | ⟨-, ht⟩
    · rwa [ht] at hmem
    · rw [ht, htodo] at hmem
      exact fun hc => hmem (List.mem_cons_of_mem op hc)
  have hbefore (hop : op ≠ .wr line (requested c m d line)) :
      lastDriven s line = some (requested c m d line) :=
    hs line hl (by simp [hop.symm, hrest])
  rcases runOp_driver h with ⟨⟨-, hspares⟩, hsame⟩ | ⟨hop, -⟩ | ⟨line', l, hop, -, -, hlast⟩
  · rw [hsame.lastDriven_eq]
    exact hbefore fun hop => hl (hspares line _ hop)
  · exact absurd hop hfin
  · rw [hlast]
    split_ifs with heq
    · rw [heq, hwr line' l hop]
    · refine hbefore fun hop' => heq ?_
      rw [hop'] at hop
      cases hop; rfl

/-- An operation other than FIN takes no level away. -/
theorem runOp_levelsKnown {op : MicroOp} {rest : List MicroOp} {s s' : State}
    (hk : LevelsKnown s) (hfin : op ≠ .fin) (h : runOp op rest s = .ok s') : LevelsKnown s' := by
  rcases runOp_driver h with ⟨-, hsame⟩ | ⟨hop, -⟩ | ⟨line', l, -, -, hfirst, hlast⟩
  · exact hk.congr hsame
  · exact absurd hop hfin
  · intro hf line hl
    rw [hlast]
    split_ifs
    · simp
    · exact hk (hfirst ▸ hf) line hl

/-- While a WRITE runs, the block works on its list (rule R138). -/
theorem blockStep_write {tn : Turn} {c m d : Level} {s t : State}
    (hp : s.phase = .exec (.instr (.write c m d))) (h : blockStep tn s = .next t) :
    runTodo .fetch s = .next t := by
  simp only [blockStep, hp, execCmd, exec, execWrite] at h
  rwa [perform_exec hp] at h

/-- One step over the list of a WRITE. -/
theorem runTodo_write_driverKnown {c m d : Level} {w : Line → Bool} {s t : State}
    (hp : s.phase = .exec (.instr (.write c m d))) (hne : s.todo ≠ [])
    (hleft : s.todo <:+ driverOps Config.mdOrder w c m d) (hk : DriverKnown s)
    (h : runTodo .fetch s = .next t) : DriverKnown t := by
  obtain ⟨hlevels, hserved⟩ := (driverKnown_inWrite_iff hp).1 hk
  rcases runTodo_cases h with ⟨hnil, _⟩ | ⟨op, rest, s', htodo, hop, rfl⟩
  · exact absurd hnil hne
  rw [htodo] at hleft hserved
  rcases driverOps_head hleft with ⟨rfl, rfl⟩ | ⟨hfin, hrest, hwr⟩
  · exact fin_driverKnown hserved hop
  · have hne' : s'.todo ≠ [] := by
      rcases runOp_todo hop with ht | ⟨-, ht⟩
      · rwa [ht]
      · rwa [ht]
    have hp' : s'.phase = .exec (.instr (.write c m d)) := (runOp_frame hop).1.trans hp
    have hsettle : settle .fetch s' = s' := by simp [settle_eq, hne']; rfl
    rw [hsettle, driverKnown_inWrite_iff hp']
    exact ⟨runOp_levelsKnown hlevels hfin hop, runOp_served hserved htodo hfin hwr hop⟩

/-- A turn leaves what `DriverKnown` speaks of. -/
theorem driverKnown_worldMove {s : State} (h : DriverKnown s) : DriverKnown (worldMove s) := by
  have hd := sameDriver_worldMove s
  by_cases hw : InWrite s
  · obtain ⟨c, m, d, hp⟩ := hw
    obtain ⟨hlevels, hserved⟩ := (driverKnown_inWrite_iff hp).1 h
    rw [← worldMove_phase] at hp
    refine (driverKnown_inWrite_iff hp).2 ⟨hlevels.congr hd, fun line hl hmem => ?_⟩
    rw [worldMove_todo] at hmem
    rw [hd.lastDriven_eq]
    exact hserved line hl hmem
  · exact h.outside_congr hw (by rwa [inWrite_worldMove_iff]) hd

theorem driverKnown_setKilled {s : State} (h : DriverKnown s) : DriverKnown s.setKilled := by
  unfold DriverKnown at h ⊢
  exact h

/-- Settles O57. A step outside a WRITE leaves Driver State alone and may dispatch a WRITE, whose
list holds every line that is not at its level; a step of a WRITE serves one line at most, or ends
it. -/
theorem driverStateIsKnown : Obligations.DriverStateIsKnown := by
  intro s t hinv hk h
  by_cases hs : InWrite s
  · obtain ⟨c, m, d, hp⟩ := hs
    have hk' := driverKnown_worldMove hk
    rcases step_cases h with ⟨_, _, rfl⟩ | ⟨_, hblock⟩
    · exact driverKnown_setKilled hk'
    · obtain ⟨-, hphase⟩ := hinv
      simp only [PhaseHolds, hp] at hphase
      obtain ⟨-, -, -, -, hne, w, hleft⟩ := hphase
      rw [← worldMove_phase] at hp
      rw [← worldMove_todo] at hne hleft
      exact runTodo_write_driverKnown hp hne hleft hk' (blockStep_write hp hblock)
  · have hsame := step_sameDriver hinv hs h
    by_cases ht : InWrite t
    · obtain ⟨c, m, d, hp⟩ := ht
      have hlevels := ((driverKnown_outside_iff hs).1 hk).1
      refine (driverKnown_inWrite_iff hp).2 ⟨hlevels.congr hsame, ?_⟩
      rw [step_enters_write h hs hp, ← expandWrite_congr hsame]
      exact served_expandWrite c m d t
    · exact hk.outside_congr hs ht hsame

end Sys2Proof.Machine
end

section
/-! PROOFS of the statements from spec/10_state.md, part 4: the input (rule R37), the environment's
moves (rule R57), the exit output (rule R45), and reset (rules R24, R47). -/

namespace Sys2Proof.Machine

/-! ### Consumed units -/

/-- What the block has consumed, and what the host has still on offer (rules R37, R40). -/
def inputSide (s : State) : Nat × List InUnit := (s.pos, s.input)

theorem inputSide_acquire (ok : Bool) (s : State) : inputSide (acquire ok s) = inputSide s := by
  cases ok <;> rfl

theorem inputSide_runLifeOp (op : LifeOp) (rest : List LifeOp) (s : State) :
    inputSide (runLifeOp op rest s) = inputSide s := by
  cases op <;> rfl

theorem inputSide_dispatch (cmd : Cmd) (ops : List MicroOp) (after : Phase) (s : State) :
    inputSide (dispatch cmd ops after s) = inputSide s := by
  rw [dispatch_eq]; rfl

theorem inputSide_runTodo {after : Phase} {s t : State} (h : runTodo after s = .next t) :
    inputSide t = inputSide s := by
  rcases runTodo_cases h with ⟨_, rfl⟩ | ⟨op, rest, s', _, hop, rfl⟩
  · rfl
  · obtain ⟨-, ⟨-, hpos, -, -⟩, hinput, -⟩ := runOp_frame hop
    rw [settle_eq]
    exact congrArg₂ Prod.mk hpos hinput

/-- The block's own step consumes nothing, or the first unit on offer in FETCH. -/
theorem blockStep_inputSide {tn : Turn} {s t : State} (h : blockStep tn s = .next t) :
    inputSide t = inputSide s ∨
      s.phase = .fetch ∧ ∃ u rest, s.input = u :: rest ∧ inputSide t = (s.pos + 1, rest) := by
  rcases blockStep_cases h with ⟨_, _, rfl⟩ | ⟨op, rest, _, _, rfl⟩ | ⟨_, hrun⟩ | ⟨_, _, rfl⟩ |
    ⟨u, rest, hp, hi, hexec⟩ | ⟨cmd, hp, hexec⟩ | ⟨_, _, hrun⟩ | ⟨_, _, hrun⟩ | ⟨st, _, _, rfl⟩
  · exact .inl (inputSide_acquire tn.acquireOk s)
  · exact .inl (inputSide_runLifeOp op rest s)
  · exact .inl (inputSide_runTodo hrun)
  · exact .inl rfl
  · obtain ⟨ops, after, rfl⟩ := execCmd_fetch_cases (s := s.consume rest) hp hexec
    exact .inr ⟨hp, u, rest, hi, inputSide_dispatch _ ops after _⟩
  · obtain ⟨_, hrun⟩ := execCmd_exec_cases hp hexec
    exact .inl (inputSide_runTodo hrun)
  · exact .inl ((inputSide_runTodo hrun).trans rfl)
  · exact .inl (inputSide_runTodo hrun)
  · exact .inl rfl

/-- Settles O11: the turn adds offers at the end, and only a fetch takes one, from the front. -/
theorem posCountsConsumedUnits : Obligations.PosCountsConsumedUnits := by
  intro s t h
  rcases step_cases h with ⟨_, _, rfl⟩ | ⟨_, hblock⟩
  · exact .inl ⟨by simp, (nextTurn s).offer.toList, by simp⟩
  rcases blockStep_inputSide hblock with hside | ⟨hp, u, rest, hi, hside⟩
  · simp only [inputSide, Prod.mk.injEq, worldMove_pos, worldMove_input] at hside
    obtain ⟨hpos, hinput⟩ := hside
    exact .inl ⟨hpos, _, hinput⟩
  · simp only [inputSide, Prod.mk.injEq, worldMove_pos] at hside
    obtain ⟨hpos, hinput⟩ := hside
    rw [worldMove_input, ← hinput] at hi
    rw [worldMove_phase] at hp
    exact .inr ⟨hpos, hp, u, _, hi⟩

/-! ### The environment's moves -/

/-- Settles O9: a turn that proposes `w` gives the environment's bits the values of `w`. -/
theorem environmentMovesOnlyItsBits : Obligations.EnvironmentMovesOnlyItsBits := by
  refine ⟨fun s => ⟨?_, fun i hi => worldMove_softBit (s := s) hi⟩, fun s w => ?_⟩
  · simp [SameBlock]
  · refine ⟨{ quietTurn s with env := w }, rfl, fun i hi => ?_⟩
    change bitAt (envMove s.reg w) i = bitAt w i
    rw [bitAt_envMove, if_neg hi]

/-! ### The exit output -/

/-- Settles O43: the two numbers are the places of 0 and 1 under one permutation. -/
theorem exitOutputsAreDistinct : Obligations.ExitOutputsAreDistinct := by
  refine ⟨Config.exitPlace.injective.ne (by decide), fun s => ⟨?_, ?_, ?_, ?_⟩⟩
  · intro hk; simp [exitOutput, hk]
  · intro hk hp; simp [exitOutput, hk, hp]
  · intro hk hp; simp [exitOutput, hk, hp]
  · intro hk hp
    cases hph : s.phase with
    | exited st => exact absurd hph (hp st)
    | _ => simp [exitOutput, hk, hph]

/-! ### Reset and the acknowledge level -/

/-- Settles O46: the fields of the reset state. -/
theorem resetValuesAreTheSpecs : Obligations.ResetValuesAreTheSpecs :=
  ⟨rfl, rfl, rfl, rfl, rfl, rfl, rfl, rfl, rfl, rfl, rfl, rfl, rfl⟩

/-- Settles O50, by the clock level. -/
theorem ackLevelFollowsClock : Obligations.AckLevelFollowsClock := by
  refine ⟨rfl, rfl, fun c => ?_⟩
  cases c with
  | false => cases h : Config.ackAsserted <;> simp [ackLevel, h]
  | true => simp [ackLevel]

theorem lastDriven_reset (line : Line) : lastDriven State.reset line = none := by
  cases line <;> rfl

theorem sessionInv_reset : SessionInv State.reset :=
  ⟨rfl, rfl, rfl, rfl, rfl, rfl, rfl, .inl ⟨rfl, rfl⟩⟩

/-- Nothing has been driven and nothing is held. -/
theorem lineMirror_reset : LineMirror State.reset :=
  ⟨fun line l hl => by simp [lastDriven_reset] at hl, nofun⟩

theorem driverKnown_reset : DriverKnown State.reset :=
  ⟨nofun, fun _ => lastDriven_reset⟩

/-- Settles O59. -/
theorem resetMeetsTheInvariants : Obligations.ResetMeetsTheInvariants :=
  ⟨sessionInv_reset, lineMirror_reset, trivial, driverKnown_reset, nofun⟩

end Sys2Proof.Machine
end

section
/-! PROOFS of the statements from spec/20_memory.md: the register transactions (rules R52 to R55),
the read-modify-write inside a WRITE (rules R54 to R56), and the named environment laws (rule
R58). -/

namespace Sys2Proof.Machine

/-! ### The register port -/

theorem mem_inputBits_iff {i : BitIdx} :
    i ∈ inputBits ↔ i = Config.bDataOut ∨ i = Config.bClockAck := by
  simp [inputBits]

/-- Settles O49: both accesses answer while mapped, and the write keeps the two input bits. -/
theorem registerTransactions : Obligations.RegisterTransactions := by
  intro s v hm
  refine ⟨regRead_mapped hm, writeEffect s.reg v, regWrite_mapped hm, fun i => ?_⟩
  simp only [bitAt_writeEffect, mem_inputBits_iff]

theorem regRead_unmapped {s : State} (h : s.mapped = false) :
    regRead s = .error .unmappedAccess := by
  simp [regRead, h]

theorem regWrite_unmapped {s : State} (v : Word) (h : s.mapped = false) :
    regWrite v s = .error .unmappedAccess := by
  simp [regWrite, h]

/-! ### One step of a running WRITE -/

/-- A fault of the head micro-operation is the fault of the step. -/
theorem runTodo_fault {after : Phase} {s : State} {f : Fault} {op : MicroOp}
    {rest : List MicroOp} (ht : s.todo = op :: rest) (h : runOp op rest s = .error f) :
    runTodo after s = .fault f := by
  unfold runTodo; simp [ht, h]

/-- With operations left the phase stays (rule R138). -/
theorem settle_of_todo_cons {after : Phase} {s : State} {op : MicroOp} {rest : List MicroOp}
    (ht : s.todo = op :: rest) : settle after s = s := by
  unfold settle; simp [ht]

/-- A running WRITE works on its list (rules R103, R138). -/
theorem exec_write_running {c m d : Level} {s : State}
    (hp : s.phase = .exec (.instr (.write c m d))) : exec (.write c m d) s = runTodo .fetch s :=
  perform_exec hp

/-- The machine's step during a WRITE is one operation of its list, after the turn. -/
theorem step_write_running {c m d : Level} {s : State} (ht : TakesStep s)
    (hp : s.phase = .exec (.instr (.write c m d))) : step s = runTodo .fetch (worldMove s) := by
  rw [← worldMove_phase] at hp
  rw [step_eq_blockStep ht, ← exec_write_running hp]
  simp only [blockStep, hp, execCmd]

/-- Settles O47: the accesses check the mapping first, and RD is a register read. -/
theorem unmappedAccessFaults : Obligations.UnmappedAccessFaults := by
  intro s hm
  refine ⟨regRead_unmapped hm, fun v => regWrite_unmapped v hm, fun c m d line l rest hp ht => ?_⟩
  have hop : runOp (.rd line l) rest s = .error .unmappedAccess := by
    simp [runOp, regRead_unmapped hm]
  rw [exec_write_running hp, runTodo_fault ht hop]

/-- Settles O18, by the first half of a read-modify-write. -/
theorem writeReadsLiveRegister : Obligations.WriteReadsLiveRegister := by
  intro c m d s line l op rest hp ht hm
  rw [exec_write_running hp, runTodo_rd ht hm]
  rfl

/-- While mapped and with a held word, WR answers (rules R53, R54). -/
theorem runOp_wr_answers {line : Line} {l : Level} {v : Word} {s : State} (rest : List MicroOp)
    (hv : s.held = some v) (hm : s.mapped = true) :
    ∃ t, runOp (.wr line l) rest s = .ok t := by
  simp [runOp, hv, hm]

/-- Settles O19: WR answers, operations are left after it, and its effect is known field by
field. -/
theorem writeCommitsOneLine : Obligations.WriteCommitsOneLine := by
  intro c m d s line l v op rest hp ht hv hm
  obtain ⟨t, hop⟩ := runOp_wr_answers (line := line) (l := l) (op :: rest) hv hm
  obtain ⟨v', hv', hreg, hlog, hheld, hfirst, hout, hlast⟩ := runOp_wr hop
  obtain rfl : v = v' := Option.some.inj (hv.symm.trans hv')
  obtain ⟨hphase, hsession, hworld⟩ := runOp_frame hop
  have htodo : t.todo = op :: rest := (runOp_todo hop).resolve_right nofun
  have hdiag : t.diag = s.diag := ((runOp_diag hop).resolve_right nofun).2
  refine ⟨t, insertBit (bitOf line) l v, ?_, fun i => bitAt_insertBit (bitOf line) i l v,
    fun i => ?_, hlog, hheld, htodo, hlast, hphase, hfirst, hout, hdiag, hsession, hworld⟩
  · rw [exec_write_running hp, runTodo_cons ht hop, settle_of_todo_cons htodo]
  · rw [hreg, bitAt_writeEffect]

/-- A poll step reads the register once, and drops the poll exactly if CLOCK_ACK is as awaited (rule
R134). -/
theorem runTodo_poll {after : Phase} {s : State} {e : Level} {op : MicroOp} {rest : List MicroOp}
    (ht : s.todo = .poll e :: op :: rest) (hm : s.mapped = true) :
    runTodo after s = .next ((s.pushReg (.rd s.reg)).setTodo
      (if bitAt s.reg Config.bClockAck = e then op :: rest else .poll e :: op :: rest)) := by
  by_cases hack : bitAt s.reg Config.bClockAck = e
  · have hop : runOp (.poll e) (op :: rest) s =
        .ok ((s.pushReg (.rd s.reg)).setTodo (op :: rest)) := by
      simp [runOp, hm, hack]
    rw [runTodo_cons ht hop, settle_of_todo_cons rfl, if_pos hack]
  · have hop : runOp (.poll e) (op :: rest) s = .ok (s.pushReg (.rd s.reg)) := by
      simp [runOp, hm, hack]
    rw [runTodo_cons ht hop, settle_of_todo_cons (s := s.pushReg (.rd s.reg)) ht, if_neg hack, ← ht]
    rfl

/-! ### The named environment laws -/

/-- After a read and a write, the presented word takes CLOCK_ACK from the written CLOCK, and
DATA_OUT from `dOut` if the write changed CLOCK (rule R58). -/
theorem envAckWord_read_write (dOut : Word → Word → Level) (log : List RegEvent) (p v reg : Word) :
    envAckWord dOut (log ++ [.rd p, .wr v]) reg =
      let acked := insertBit Config.bClockAck (ackLevel (bitAt v Config.bClock)) reg
      if bitAt v Config.bClock = bitAt p Config.bClock then acked
      else insertBit Config.bDataOut (dOut p v) acked := by
  simp [envAckWord]

/-- The two input bits are distinct (rule R9). -/
theorem bClockAck_ne_bDataOut : Config.bClockAck ≠ Config.bDataOut :=
  Config.fieldPlace.injective.ne (by decide)

theorem bitAt_envAckWord_clockAck (dOut : Word → Word → Level) (log : List RegEvent)
    (p v reg : Word) : bitAt (envAckWord dOut (log ++ [.rd p, .wr v]) reg) Config.bClockAck =
      ackLevel (bitAt v Config.bClock) := by
  rw [envAckWord_read_write]
  by_cases hclk : bitAt v Config.bClock = bitAt p Config.bClock
  · simp [hclk]
  · simp [hclk, bClockAck_ne_bDataOut]

theorem bitAt_envAckWord_dataOut (dOut : Word → Word → Level) (log : List RegEvent)
    {p v : Word} (reg : Word) (hclk : bitAt v Config.bClock ≠ bitAt p Config.bClock) :
    bitAt (envAckWord dOut (log ++ [.rd p, .wr v]) reg) Config.bDataOut = dOut p v := by
  simp [envAckWord_read_write, hclk]

/-- A turn under ENV_ACK presents the acknowledging word. -/
theorem worldMove_reg_of_envAck {dOut : Word → Word → Level} {s : State}
    (h : Obeys (envAck dOut) s) : (worldMove s).reg = envAckWord dOut s.regLog s.reg := h

/-- A turn under ENV_NOACK keeps CLOCK_ACK. -/
theorem worldMove_clockAck_of_envNoAck {s : State} (h : Obeys envNoAck s) :
    bitAt (worldMove s).reg Config.bClockAck = bitAt s.reg Config.bClockAck := h

/-- Settles O29: a rising clock write changes CLOCK, so DATA_OUT takes the mirror's level. -/
theorem mirrorLawCopiesDataOnRisingClock : Obligations.MirrorLawCopiesDataOnRisingClock := by
  intro s log p v hlaw hlog hp hv
  have hclk : bitAt v Config.bClock ≠ bitAt p Config.bClock := by simp [hp, hv]
  rw [worldMove_reg_of_envAck hlaw, hlog]
  constructor
  · rw [bitAt_envAckWord_dataOut _ log s.reg hclk, if_pos hv]
  · rw [bitAt_envAckWord_clockAck, hv]

/-- A step on a poll of a running WRITE: the turn's CLOCK_ACK decides it. -/
theorem step_poll {c m d : Level} {s : State} {e : Level} {op : MicroOp} {rest : List MicroOp}
    (hstep : TakesStep s) (hm : s.mapped = true) (hp : s.phase = .exec (.instr (.write c m d)))
    (ht : s.todo = .poll e :: op :: rest) :
    step s = .next (((worldMove s).pushReg (.rd (worldMove s).reg)).setTodo
      (if bitAt (worldMove s).reg Config.bClockAck = e then op :: rest
        else .poll e :: op :: rest)) := by
  rw [← worldMove_todo] at ht
  rw [← worldMove_mapped] at hm
  rw [step_write_running hstep hp, runTodo_poll ht hm]

/-- Settles O28: each law says which CLOCK_ACK the poll's read finds. -/
theorem namedLawsDecideThePoll : Obligations.NamedLawsDecideThePoll := by
  constructor
  · intro dOut c m d s log p v op rest hstep hlaw hm hp ht hlog hc
    have hack : bitAt (worldMove s).reg Config.bClockAck = ackLevel c := by
      rw [worldMove_reg_of_envAck hlaw, hlog, bitAt_envAckWord_clockAck, hc]
    refine ⟨_, step_poll hstep hm hp ht, ?_⟩
    rw [State.setTodo_todo, if_pos hack]
  · intro c m d s e op rest hstep hlaw hm hp ht
    have hack := worldMove_clockAck_of_envNoAck hlaw
    refine ⟨_, step_poll hstep hm hp ht, ?_, ?_, ?_, ?_⟩
    · rw [State.setTodo_phase, State.pushReg_phase, worldMove_phase]
    · rw [State.setTodo_mapped, State.pushReg_mapped, worldMove_mapped, hm]
    · rw [State.setTodo_reg, State.pushReg_reg, hack]
    · rw [State.setTodo_todo, hack]

end Sys2Proof.Machine
end

section
/-! PROOFS of the statements from spec/30_encoding.md: the decoder inverts the encoder, every
byte is an instruction's or lies in the ranges of rule R78, and so whole programs and unit streams
correspond. -/

namespace Sys2Proof.Machine

/-! ### The bytes of the instructions -/

/-- Rule R71: the five high bits of a byte are those of `'0'`..`'7'` exactly in that range. -/
theorem highBits_eq_iff (u : Byte) :
    u &&& 0xF8#8 = 0x30#8 ↔ 0x30 ≤ u.toNat ∧ u.toNat ≤ 0x37 := by
  have hclear : u &&& 0xF8#8 = u >>> 3 <<< 3 := by
    have hmask : ∀ i < 8, (0xF8#8).getLsbD i = !decide (i < 3) := by decide
    refine BitVec.eq_of_getLsbD_eq fun i hi => ?_
    by_cases hlow : i < 3
    · simp [hmask i hi, hlow]
    · simp [hmask i hi, hi, hlow, show 3 + (i - 3) = i by omega]
  rw [hclear]
  bv_omega

/-- Rule R71: a byte with WRITE's fixed bits is the byte of the WRITE whose levels are its low
bits. -/
theorem encode_write_of_highBits {u : Byte} (h : u &&& 0xF8#8 = 0x30#8) :
    encode (.write (u.getLsbD 2) (u.getLsbD 1) (u.getLsbD 0)) = u := by
  have hlow : (BitVec.ofBool (u.getLsbD 2)).setWidth 8 <<< 2
      ||| (BitVec.ofBool (u.getLsbD 1)).setWidth 8 <<< 1
      ||| (BitVec.ofBool (u.getLsbD 0)).setWidth 8 = u &&& 0x07#8 := by
    have hmask : ∀ i < 8, (0x07#8).getLsbD i = decide (i < 3) := by decide
    refine BitVec.eq_of_getLsbD_eq fun i hi => ?_
    match i with
    | 0 | 1 | 2 => simp
    | j + 3 => simp [hmask _ hi]
  calc encode (.write (u.getLsbD 2) (u.getLsbD 1) (u.getLsbD 0))
      = (u &&& 0xF8#8) ||| (u &&& 0x07#8) := by
        rw [h, ← hlow]; simp only [encode, BitVec.or_assoc]
    _ = u &&& (0xF8#8 ||| 0x07#8) := BitVec.and_or_distrib_left.symm
    _ = u := BitVec.and_allOnes

/-- No instruction's byte lies in the ranges of rule R78. -/
theorem encode_valid (i : Instr) : isInvalidByte (encode i) = false := by
  cases i with
  | write c m d => cases c <;> cases m <;> cases d <;> decide
  | _ => decide

/-! ### Decoding -/

/-- The decoder reads an instruction's byte as that instruction (rules R76, R83). -/
theorem decodeByte_encode (i : Instr) : decodeByte (encode i) = .instr i := by
  cases i with
  | write c m d => cases c <;> cases m <;> cases d <;> decide
  | _ => decide

/-- Rules R76 and R78: a byte is the byte of the instruction it decodes to, or it is invalid and
lies in the listed ranges. -/
theorem decodeByte_cases (u : Byte) :
    (∃ i, decodeByte u = .instr i ∧ encode i = u) ∨
      (decodeByte u = .invalid u ∧ isInvalidByte u = true) := by
  fun_cases decodeByte u with
  | case1 hwrite => exact .inl ⟨_, rfl, encode_write_of_highBits hwrite⟩
  | case10 =>
    refine .inr ⟨rfl, ?_⟩
    simp_all only [highBits_eq_iff, isInvalidByte, Bool.or_eq_true, Bool.and_eq_true,
      decide_eq_true_eq]
    bv_omega
  | _ => exact .inl ⟨_, rfl, ‹u = _›.symm⟩

theorem isInvalidByte_eq_false_iff (u : Byte) :
    isInvalidByte u = false ↔ ∃ i, encode i = u := by
  constructor
  · intro hvalid
    obtain ⟨i, -, hi⟩ | ⟨-, hinvalid⟩ := decodeByte_cases u
    · exact ⟨i, hi⟩
    · simp [hvalid] at hinvalid
  · rintro ⟨i, rfl⟩
    exact encode_valid i

theorem decodeByte_invalid_iff (u : Byte) :
    decodeByte u = .invalid u ↔ isInvalidByte u = true := by
  obtain ⟨i, hdec, rfl⟩ | ⟨hdec, hinvalid⟩ := decodeByte_cases u
  · simp [hdec, encode_valid]
  · simp [hdec, hinvalid]

/-- Settles O4. -/
theorem instructionRoundTrip : Obligations.InstructionRoundTrip := decodeByte_encode

/-- Settles O2: a valid byte is an instruction's, which the decoder gives back. -/
theorem invalidBytesAreTheListedRanges : Obligations.InvalidBytesAreTheListedRanges := by
  refine fun b => ⟨decodeByte_invalid_iff b, fun hvalid => ?_⟩
  obtain ⟨i, rfl⟩ := (isInvalidByte_eq_false_iff b).mp hvalid
  exact ⟨i, decodeByte_encode i⟩

/-- Settles O1: each byte is what the encoder writes for its instruction. -/
theorem commandBytesDecode : Obligations.CommandBytesDecode :=
  ⟨decodeByte_encode (.write true false true), decodeByte_encode (.write true true false),
    decodeByte_encode (.write false false true), decodeByte_encode .read, decodeByte_encode .quit,
    decodeByte_encode .blinkUpper, decodeByte_encode .blinkLower, decodeByte_encode .resetR,
    decodeByte_encode .resetR1, decodeByte_encode .resetR2, decodeByte_encode .resetR3,
    (decodeByte_invalid_iff 0x71#8).mpr (by decide), rfl⟩

/-! ### The opcode map -/

/-- An instruction's byte fits exactly its own row (rules R75, R76). -/
theorem rows_fitting_encode (i : Instr) :
    (opcodeRows.filter fun r => r.fits (encode i)).map OpcodeRow.mnemonic = [i.mnemonic] :=
  match i with
  | .write c m d => Laws.OneRow.write c m d
  | .read => Laws.OneRow.read
  | .quit => Laws.OneRow.quit
  | .blinkUpper => Laws.OneRow.blinkUpper
  | .blinkLower => Laws.OneRow.blinkLower
  | .resetR => Laws.OneRow.resetR
  | .resetR1 => Laws.OneRow.resetR1
  | .resetR2 => Laws.OneRow.resetR2
  | .resetR3 => Laws.OneRow.resetR3

/-- A byte that fits a row of the opcode map is some instruction's (rule R75). -/
theorem exists_encode_of_fits {r : OpcodeRow} {b : Byte} (hr : r ∈ opcodeRows)
    (h : r.fits b = true) : ∃ i, encode i = b := by
  have hfull : b &&& 0xFF#8 = b := BitVec.and_allOnes
  simp only [opcodeRows, List.mem_cons, List.not_mem_nil, or_false] at hr
  rcases hr with rfl | rfl | rfl | rfl | rfl | rfl | rfl | rfl | rfl <;>
    simp only [OpcodeRow.fits, beq_iff_eq, hfull] at h
  · exact ⟨_, encode_write_of_highBits h⟩
  · exact ⟨.read, h.symm⟩
  · exact ⟨.quit, h.symm⟩
  · exact ⟨.blinkUpper, h.symm⟩
  · exact ⟨.blinkLower, h.symm⟩
  · exact ⟨.resetR, h.symm⟩
  · exact ⟨.resetR1, h.symm⟩
  · exact ⟨.resetR2, h.symm⟩
  · exact ⟨.resetR3, h.symm⟩

/-- Settles O3: an instruction's byte fits its one row, and a byte that fits a row is an
instruction's. -/
theorem opcodeRowsDoNotOverlap : Obligations.OpcodeRowsDoNotOverlap := by
  intro b
  by_cases hinvalid : isInvalidByte b = true
  · rw [if_pos hinvalid, List.length_eq_zero_iff, List.filter_eq_nil_iff]
    intro r hr hfits
    obtain ⟨i, rfl⟩ := exists_encode_of_fits hr hfits
    simp [encode_valid] at hinvalid
  · rw [if_neg hinvalid]
    obtain ⟨i, rfl⟩ := (isInvalidByte_eq_false_iff b).mp (Bool.eq_false_of_not_eq_true hinvalid)
    simpa using congrArg List.length (rows_fitting_encode i)

/-! ### Units, programs and streams -/

/-- Every `Instr` is well-formed (rule R74). -/
@[simp] theorem instr_wf (i : Instr) : i.wf = true := by cases i <;> rfl

/-- A well-formed command is read back from its unit (rules R73, R76). -/
theorem decode_encodeCmd {c : Cmd} (h : c.wf = true) : decode (encodeCmd c) = c := by
  cases c with
  | instr i => exact decodeByte_encode i
  | invalid b => exact (decodeByte_invalid_iff b).mpr h
  | eos => rfl

/-- The unit of the command a unit decodes to is that unit: no bit is dropped (rule R76). -/
theorem encodeCmd_decode (u : InUnit) : encodeCmd (decode u) = u := by
  cases u with
  | byte b =>
    obtain ⟨i, hdec, hi⟩ | ⟨hdec, -⟩ := decodeByte_cases b
    · simp only [decode, hdec, encodeCmd, hi]
    · simp only [decode, hdec, encodeCmd]
  | eos => rfl

/-- The decoder answers only well-formed commands (rules R76, R78). -/
theorem decode_wf (u : InUnit) : (decode u).wf = true := by
  cases u with
  | byte b =>
    obtain ⟨i, hdec, -⟩ | ⟨hdec, hinvalid⟩ := decodeByte_cases b
    · simp only [decode, hdec, Cmd.wf, instr_wf]
    · simp only [decode, hdec, Cmd.wf, hinvalid]
  | eos => rfl

/-- A program of well-formed commands is read back from its units (rules R70, R82, R83). -/
theorem decodeStream_encodeProgram {p : List Cmd} (hwf : ∀ c ∈ p, c.wf = true) :
    decodeStream (encodeProgram p) = p := by
  induction p with
  | nil => rfl
  | cons c p ih =>
    obtain ⟨hc, hp⟩ := List.forall_mem_cons.mp hwf
    change decode (encodeCmd c) :: decodeStream (encodeProgram p) = c :: p
    rw [decode_encodeCmd hc, ih hp]

/-- A unit stream is the encoding of the commands it decodes to (rules R70, R82). -/
theorem encodeProgram_decodeStream (us : List InUnit) : encodeProgram (decodeStream us) = us := by
  induction us with
  | nil => rfl
  | cons u us ih =>
    change encodeCmd (decode u) :: encodeProgram (decodeStream us) = u :: us
    rw [encodeCmd_decode, ih]

/-- Settles O5, by the round trips of a command and of a unit. -/
theorem programRoundTrip : Obligations.ProgramRoundTrip :=
  ⟨fun _ hwf => decodeStream_encodeProgram hwf, fun us =>
    ⟨encodeProgram_decodeStream us, List.forall_mem_map.mpr fun u _ => decode_wf u⟩⟩

end Sys2Proof.Machine
end

section
/-! PROOFS of the statements from spec/40_protocol_loop.md, part 1: one step in FETCH and in EXEC
(rules R100 to R104), the commands without micro-operations (rules R110 to R117), and where a meaning
stops. -/

namespace Sys2Proof.Machine

/-! ### The step by phase -/

/-- In FETCH the step consumes the first unit on offer after the turn and dispatches its command
(rules R100, R103). -/
theorem step_fetch {s : State} {u : InUnit} {rest : List InUnit} (ht : TakesStep s)
    (hp : s.phase = .fetch) (hi : (worldMove s).input = u :: rest) :
    step s = execCmd (decode u) ((worldMove s).consume rest) := by
  rw [step_eq_blockStep ht]
  simp only [blockStep, worldMove_phase, hp, fetchStep, hi]

/-- In FETCH with nothing on offer only the outside world moves (rule R101). -/
theorem step_fetch_silent {s : State} (ht : TakesStep s) (hp : s.phase = .fetch)
    (hi : (worldMove s).input = []) : step s = .next (worldMove s) := by
  rw [step_eq_blockStep ht]
  simp only [blockStep, worldMove_phase, hp, fetchStep, hi]

/-- In EXEC the step is the running command's, after the turn (rules R102, R103). -/
theorem step_exec {s : State} {cmd : Cmd} (ht : TakesStep s) (hp : s.phase = .exec cmd) :
    step s = execCmd cmd (worldMove s) := by
  rw [step_eq_blockStep ht]
  simp only [blockStep, worldMove_phase, hp]

/-- Settles O6. -/
theorem stepRunsDecodedInstruction : Obligations.StepRunsDecodedInstruction := by
  intro s u rest i ht hp hi hu
  refine ⟨?_, by rw [State.consume_pos, worldMove_pos], State.consume_input _ rest⟩
  rw [step_fetch ht hp hi, hu]
  rfl

/-- Settles O7. -/
theorem stepContinuesRunningInstruction : Obligations.StepContinuesRunningInstruction :=
  fun _ _ ht hp => step_exec ht hp

/-- Settles O8: a turn leaves the block's own fields alone. -/
theorem silentHostLeavesBlockWaiting : Obligations.SilentHostLeavesBlockWaiting :=
  fun s ht hp hi => ⟨step_fetch_silent ht hp hi, (environmentMovesOnlyItsBits.1 s).1⟩

/-! ### Commands without micro-operations -/

/-- The six stub commands (rules R112 to R117). -/
def IsStub (i : Instr) : Prop :=
  i = .blinkUpper ∨ i = .blinkLower ∨ i = .resetR ∨ i = .resetR1 ∨ i = .resetR2 ∨ i = .resetR3

/-- QUIT and EOS, the commands that end the loop (rule R104). -/
def EndsLoop (cmd : Cmd) : Prop := cmd = .instr .quit ∨ cmd = .eos

/-- A command without micro-operations moves on in its dispatch (rule R164). -/
theorem perform_fetch_nil {cmd : Cmd} {after : Phase} {s : State} (hp : s.phase = .fetch) :
    perform cmd [] after s = .next { s with phase := after, todo := [] } := by
  rw [perform_fetch hp, dispatch_eq, if_pos rfl]
  rfl

/-- A stub's dispatch only empties the list (rules R112 to R117). -/
theorem exec_stub {i : Instr} {s : State} (hi : IsStub i) (hp : s.phase = .fetch) :
    exec i s = .next { s with todo := [] } := by
  have hperform : exec i s = perform (.instr i) [] .fetch s := by
    rcases hi with rfl | rfl | rfl | rfl | rfl | rfl <;> rfl
  rw [hperform, perform_fetch_nil hp, ← hp]

/-- The dispatch of QUIT and of EOS goes to STOP at once (rules R110, R111). -/
theorem execCmd_endsLoop {cmd : Cmd} {s : State} (hc : EndsLoop cmd) (hp : s.phase = .fetch) :
    execCmd cmd s = .next { s with phase := .stop, todo := [] } := by
  have hperform : execCmd cmd s = perform cmd [] .stop s := by
    rcases hc with rfl | rfl <;> rfl
  rw [hperform, perform_fetch_nil hp]

/-- Settles O36. -/
theorem stubsChangeNothing : Obligations.StubsChangeNothing :=
  fun _ _ hi hp => exec_stub hi hp

/-- Settles O37: the fetch dispatches the stub, which leaves the state with the byte consumed. -/
theorem stubStepOnlyAdvancesPos : Obligations.StubStepOnlyAdvancesPos := by
  intro i s rest hi ht hp htodo hin
  have hdecode : decode (.byte (encode i)) = .instr i := decodeByte_encode i
  have hempty : ((worldMove s).consume rest).todo = [] := by
    rw [State.consume_todo, worldMove_todo, htodo]
  have hfetch : ((worldMove s).consume rest).phase = .fetch := by
    rw [State.consume_phase, worldMove_phase, hp]
  calc step s = exec i ((worldMove s).consume rest) := by
        rw [step_fetch ht hp hin, hdecode]; rfl
    _ = .next { (worldMove s).consume rest with todo := [] } := exec_stub hi hfetch
    _ = .next ((worldMove s).consume rest) := by rw [← hempty]
    _ = .next { worldMove s with input := rest, pos := s.pos + 1 } := by
        rw [State.consume, worldMove_pos]

/-- Settles O38. -/
theorem quitGoesToStop : Obligations.QuitGoesToStop :=
  fun _ hp => execCmd_endsLoop (.inl rfl) hp

/-! ### A running command -/

/-- A command of which something is left goes back to FETCH when done: QUIT and EOS, which go to
STOP, have no micro-operations (rule R138). -/
theorem execCmd_running {cmd : Cmd} {s : State} (hp : s.phase = .exec cmd)
    (hleft : LeftOf cmd s.todo) : execCmd cmd s = runTodo .fetch s := by
  obtain ⟨ops, after, heq, hcmd⟩ := execCmd_eq cmd s
  rw [heq, perform_exec hp]
  rcases hcmd with ⟨_, _, _, _, _, rfl⟩ | ⟨_, _, rfl⟩ | ⟨_, _, _, rfl⟩ | ⟨rfl | rfl, _⟩ |
    ⟨_, _, rfl⟩
  · rfl
  · rfl
  · rfl
  · exact hleft.elim
  · exact hleft.elim
  · rfl

/-- In EXEC something is left of the command (rules R36, R138). -/
theorem SessionInv.exec_left {s : State} {cmd : Cmd} (h : SessionInv s)
    (hp : s.phase = .exec cmd) : s.todo ≠ [] ∧ LeftOf cmd s.todo := by
  obtain ⟨-, hphase⟩ := h
  simp only [PhaseHolds, hp] at hphase
  obtain ⟨-, -, -, -, hne, hleft⟩ := hphase
  exact ⟨hne, hleft⟩

/-- In FETCH nothing is left and no word is held (rule R36). -/
theorem SessionInv.fetch_idle {s : State} (h : SessionInv s) (hp : s.phase = .fetch) :
    s.todo = [] ∧ s.held = none := by
  obtain ⟨hheld, hphase⟩ := h
  simp only [PhaseHolds, hp] at hphase
  obtain ⟨-, -, -, -, htodo⟩ := hphase
  exact ⟨htodo, by simpa [htodo, usesHeld] using hheld⟩

/-- From the list `ops` at most the head is taken, and the block is back in FETCH exactly if nothing
is left. -/
def WorksOff (cmd : Cmd) (ops : List MicroOp) (t : State) : Prop :=
  (t.todo = ops ∨ ∃ op, ops = op :: t.todo) ∧
    ((t.phase = .exec cmd ∧ t.todo ≠ []) ∨ (t.phase = .fetch ∧ t.todo = []))

/-- One step over a command's list (rule R138). -/
theorem runTodo_worksOff {cmd : Cmd} {s t : State} (hp : s.phase = .exec cmd)
    (hne : s.todo ≠ []) (h : runTodo .fetch s = .next t) : WorksOff cmd s.todo t := by
  rcases runTodo_cases h with ⟨hnil, _⟩ | ⟨op, rest, s', htodo, hop, rfl⟩
  · exact absurd hnil hne
  have hhead : s'.todo = s.todo ∨ ∃ op, s.todo = op :: s'.todo := by
    rcases runOp_todo hop with hrest | ⟨-, hsame⟩
    · exact .inr ⟨op, by rw [htodo, hrest]⟩
    · exact .inl hsame
  have hphase : s'.phase = .exec cmd := (runOp_frame hop).1.trans hp
  rw [settle_eq]
  by_cases hdone : s'.todo = []
  · exact ⟨hhead, .inr ⟨if_pos hdone, hdone⟩⟩
  · exact ⟨hhead, .inl ⟨(if_neg hdone).trans hphase, hdone⟩⟩

/-- A step of the machine in EXEC works on the command's list, or the host terminates the block
before it (rules R102, R180). -/
theorem step_exec_worksOff {s t : State} {cmd : Cmd} (hinv : SessionInv s)
    (hp : s.phase = .exec cmd) (h : step s = .next t) : WorksOff cmd s.todo t := by
  obtain ⟨hne, hleft⟩ := hinv.exec_left hp
  rcases step_cases h with ⟨_, _, rfl⟩ | ⟨ht, _⟩
  · simp [WorksOff, hp, hne]
  · rw [step_exec ht hp] at h
    rw [← worldMove_phase] at hp
    rw [← worldMove_todo] at hne hleft ⊢
    rw [execCmd_running hp hleft] at h
    exact runTodo_worksOff hp hne h

/-- Settles O16: a unit is consumed in FETCH only, where nothing is left, and in EXEC the list is
worked off. -/
theorem nextUnitWaitsForTheCommand : Obligations.NextUnitWaitsForTheCommand := by
  intro s t hinv h
  have hunit := posCountsConsumedUnits s t h
  refine ⟨fun hne => ?_, fun cmd hp => ?_⟩
  · rcases hunit with ⟨hpos, -⟩ | ⟨hpos, hp, -⟩
    · exact absurd hpos hne
    · obtain ⟨htodo, hheld⟩ := hinv.fetch_idle hp
      exact ⟨hp, htodo, hheld, hpos⟩
  · rcases hunit with ⟨hpos, hinput⟩ | ⟨-, hfetch, -⟩
    · exact ⟨hpos, hinput, step_exec_worksOff hinv hp h⟩
    · simp [hp] at hfetch

/-! ### The end of the loop -/

/-- A dispatch ends in FETCH, in EXEC of its command, or, of QUIT and EOS only, in STOP. -/
theorem execCmd_fetch_phase {cmd : Cmd} {s t : State} (hp : s.phase = .fetch)
    (h : execCmd cmd s = .next t) :
    t.phase = .fetch ∨ t.phase = .exec cmd ∨ (t.phase = .stop ∧ EndsLoop cmd) := by
  obtain ⟨ops, after, heq, hcmd⟩ := execCmd_eq cmd s
  rw [heq, perform_fetch hp] at h
  cases h
  have hafter : after = .fetch ∨ (after = .stop ∧ EndsLoop cmd) := by
    rcases hcmd with ⟨_, _, _, _, _, rfl⟩ | ⟨_, _, rfl⟩ | ⟨_, _, _, rfl⟩ | ⟨hc, _, rfl⟩ |
      ⟨_, _, rfl⟩
    · exact .inl rfl
    · exact .inl rfl
    · exact .inl rfl
    · exact .inr ⟨rfl, hc⟩
    · exact .inl rfl
  rw [dispatch_eq, State.setPhase_phase]
  split_ifs
  · rcases hafter with hfetch | hstop
    · exact .inl hfetch
    · exact .inr (.inr hstop)
  · exact .inr (.inl rfl)

/-- A step in FETCH stays there, or dispatches the first unit on offer after the turn. -/
theorem step_fetch_cases {s t : State} (hp : s.phase = .fetch) (h : step s = .next t) :
    t.phase = .fetch ∨ ∃ u rest, (worldMove s).input = u :: rest ∧
      execCmd (decode u) ((worldMove s).consume rest) = .next t := by
  rcases step_cases h with ⟨_, _, rfl⟩ | ⟨ht, _⟩
  · exact .inl (by simp [hp])
  cases hi : (worldMove s).input with
  | nil =>
    rw [step_fetch_silent ht hp hi] at h
    cases h
    exact .inl (by simp [hp])
  | cons u rest =>
    rw [step_fetch ht hp hi] at h
    exact .inr ⟨u, rest, rfl, h⟩

/-- Settles O15: in EXEC the block stays in the loop, and in FETCH only the dispatch of QUIT or EOS
leaves it. -/
theorem loopEndsOnlyOnQuitOrEos : Obligations.LoopEndsOnlyOnQuitOrEos := by
  rintro s t hinv h (hp | ⟨cmd, hp⟩) hfetch hexec
  · rcases step_fetch_cases hp h with hstay | ⟨u, rest, hi, hdispatch⟩
    · exact absurd hstay hfetch
    · have hp' : ((worldMove s).consume rest).phase = .fetch := by
        rw [State.consume_phase, worldMove_phase, hp]
      rcases execCmd_fetch_phase hp' hdispatch with hstay | hrun | ⟨hstop, hends⟩
      · exact absurd hstay hfetch
      · exact absurd hrun (hexec _)
      · exact ⟨hp, hstop, u, rest, hi, hends⟩
  · obtain ⟨-, ⟨hstay, -⟩ | ⟨hback, -⟩⟩ := step_exec_worksOff hinv hp h
    · exact absurd hstay (hexec cmd)
    · exact absurd hback hfetch

/-! ### Where a meaning stops -/

/-- Outside FETCH and its own EXEC a command has no step (rules R100, R138). -/
theorem perform_wrongPhase {cmd : Cmd} {ops : List MicroOp} {after : Phase} {s : State}
    (hf : s.phase ≠ .fetch) (he : s.phase ≠ .exec cmd) :
    perform cmd ops after s = .fault .wrongPhase := by
  unfold perform
  split
  next hp => exact absurd hp hf
  next cur hp => exact if_neg fun hcur => he (hp.trans (congrArg Phase.exec hcur))
  all_goals rfl

/-- While mapped, an operation answers if a word is held exactly where one is used (rules R36,
R138). -/
theorem runOp_answers {op : MicroOp} {s : State} (rest : List MicroOp) (hm : s.mapped = true)
    (hheld : s.held.isSome = usesHeld (op :: rest)) : ∃ t, runOp op rest s = .ok t := by
  cases op with
  | rd line l => simp [runOp, hm]
  | wr line l =>
    obtain ⟨v, hv⟩ := Option.isSome_iff_exists.mp hheld
    exact runOp_wr_answers rest hv hm
  | poll e => simp [runOp, hm]
  | fin => exact ⟨_, rfl⟩
  | sample => simp [runOp, hm]
  | emit =>
    obtain ⟨v, hv⟩ := Option.isSome_iff_exists.mp hheld
    simp [runOp, hv]
  | diagu b => exact ⟨_, rfl⟩

theorem runTodo_answers {after : Phase} {s : State} (hm : s.mapped = true)
    (hheld : s.held.isSome = usesHeld s.todo) : ∃ t, runTodo after s = .next t := by
  cases htodo : s.todo with
  | nil => exact ⟨s.setPhase after, by simp [runTodo, htodo]⟩
  | cons op rest =>
    rw [htodo] at hheld
    obtain ⟨s', hop⟩ := runOp_answers rest hm hheld
    exact ⟨_, runTodo_cons htodo hop⟩

theorem sessionInv_worldMove {s : State} (h : SessionInv s) : SessionInv (worldMove s) := by
  simpa [SessionInv, PhaseHolds, ClosedHistories] using h

/-- While the phase is one that works on a list, the mapping is held (rules R38, R164). -/
theorem SessionInv.mapped {s : State} (h : SessionInv s)
    (hp : s.phase = .start ∨ s.phase = .stop ∨ ∃ cmd, s.phase = .exec cmd) : s.mapped = true := by
  obtain ⟨-, hphase⟩ := h
  rcases hp with hp | hp | ⟨cmd, hp⟩ <;> simp only [PhaseHolds, hp] at hphase <;> exact hphase.1

/-- The block's own step answers in every phase but EXITED (rule R164). -/
theorem blockStep_answers {tn : Turn} {s : State} (h : SessionInv s)
    (hp : ∀ st, s.phase ≠ .exited st) : ∃ t, blockStep tn s = .next t := by
  have hheld := h.1
  cases hph : s.phase with
  | map => cases hl : s.life <;> simp [blockStep, hph, mapStep, hl]
  | start =>
    simp only [blockStep, hph]
    exact runTodo_answers (h.mapped (.inl hph)) hheld
  | fetch =>
    cases hi : s.input with
    | nil => exact ⟨s, by simp only [blockStep, hph, fetchStep, hi]⟩
    | cons u rest =>
      obtain ⟨ops, after, heq, -⟩ := execCmd_eq (decode u) (s.consume rest)
      simp only [blockStep, hph, fetchStep, hi, heq]
      exact ⟨_, perform_fetch hph⟩
  | exec cmd =>
    simp only [blockStep, hph, execCmd_running hph (h.exec_left hph).2]
    exact runTodo_answers (h.mapped (.inr (.inr ⟨cmd, hph⟩))) hheld
  | stop =>
    have hm := h.mapped (.inr (.inl hph))
    cases htodo : s.todo with
    | nil =>
      simp only [blockStep, hph, stopStep, htodo]
      rw [htodo] at hheld
      exact runTodo_answers hm hheld
    | cons op rest =>
      simp only [blockStep, hph, stopStep, htodo]
      exact runTodo_answers hm hheld
  | release st => cases hl : s.life <;> simp [blockStep, hph, releaseStep, hl]
  | exited st => exact absurd hph (hp st)

/-- No fault before the end of the session. -/
theorem step_answers {s : State} (h : SessionInv s) (he : ended s = none) :
    ∃ t, step s = .next t := by
  obtain ⟨-, hp⟩ := ended_none_iff.mp he
  cases hk : (nextTurn s).kill with
  | true => exact ⟨(worldMove s).setKilled, by simp [step, machineStep, he, hk]⟩
  | false =>
    rw [step_eq_blockStep ⟨he, hk⟩]
    exact blockStep_answers (sessionInv_worldMove h) (by simpa using hp)

/-- A session that is over has one of the two faults of the end (rules R168, R180). -/
theorem ended_some_cases {s : State} {f : Fault} (h : ended s = some f) :
    f = .terminated ∨ ∃ st, f = .sessionOver st := by
  unfold ended at h
  split_ifs at h
  · exact .inl (Option.some.inj h).symm
  · split at h <;> simp only [reduceCtorEq, Option.some.injEq] at h
    exact .inr ⟨_, h.symm⟩

/-- Settles O48: a meaning checks its phase first and its held word in WR and EMIT; with the session
invariant the step answers until the session is over. -/
theorem meaningsStopByName : Obligations.MeaningsStopByName := by
  refine ⟨fun i s hf he => ?_, fun c m d line l rest s hp ht hh => ?_, fun rest s hp ht hh => ?_,
    fun s f hinv h => ?_⟩
  · obtain ⟨ops, after, heq, -⟩ := execCmd_eq (.instr i) s
    exact heq.trans (perform_wrongPhase hf he)
  · have hop : runOp (.wr line l) rest s = .error .noHeldWord := by simp [runOp, hh]
    rw [exec_write_running hp, runTodo_fault ht hop]
  · have hop : runOp .emit rest s = .error .noHeldWord := by simp [runOp, hh]
    have hrun : exec .read s = runTodo .fetch s := perform_exec hp
    rw [hrun, runTodo_fault ht hop]
  · cases he : ended s with
    | some g =>
      have hstep : step s = .fault g := by simp only [step, machineStep, he]
      rw [hstep] at h
      cases h
      exact ended_some_cases he
    | none =>
      obtain ⟨t, ht⟩ := step_answers hinv he
      simp [ht] at h

end Sys2Proof.Machine
end

section
/-! PROOFS of the statements from spec/40_protocol_loop.md, part 2: the end of a session after QUIT
or EOS (rules R110, R111), and runs of invalid bytes (rule R118). -/

namespace Sys2Proof.Machine

/-! ### Runs of several steps under settled turns -/

/-- A run may be cut after any number of steps. -/
theorem run_add {s t : State} (m n : Nat) (h : run m s = .next t) :
    run (m + n) s = run n t := by
  induction m generalizing s with
  | zero =>
    rw [run_zero, Host.Outcome.next.injEq] at h
    rw [h, Nat.zero_add]
  | succ m ih =>
    cases hs : step s with
    | next u =>
      rw [run_succ m hs] at h
      rw [Nat.succ_add, run_succ (m + n) hs, ih h]
    | fault f =>
      have : Sys2Proof.core.step s = .fault f := hs
      simp [run, Host.Core.run, this] at h
    | refused r =>
      have : Sys2Proof.core.step s = .refused r := hs
      simp [run, Host.Core.run, this] at h

/-- In a settled turn without termination the block takes its step. -/
theorem CalmFor.takesStep {n : Nat} {s : State} (h : CalmFor (n + 1) s) (he : ended s = none) :
    TakesStep s := by
  obtain ⟨t, ts, hturns, hk, -⟩ := calmFor_succ h
  exact ⟨he, by simpa only [nextTurn, hturns] using hk⟩

/-- A turn uses up the first settled one. -/
theorem CalmFor.tail {n : Nat} {s t : State} (h : CalmFor (n + 1) s)
    (ht : t.turns = s.turns.tail) : CalmFor n t := by
  obtain ⟨x, ts, hturns, -, hlen, hcalm⟩ := calmFor_succ h
  rw [hturns, List.tail_cons] at ht
  exact ⟨ht ▸ hlen, ht ▸ hcalm⟩

/-! ### Invalid bytes -/

/-- What a run of the invalid bytes `bs` does (rule R118): a report for each byte, and nothing
else. -/
structure ReportsInvalid (bs : List Byte) (s t : State) : Prop where
  diag : t.diag = s.diag ++ bs.map .unknownCmd
  phase : t.phase = .fetch
  todo : t.todo = []
  pos : t.pos = s.pos + bs.length
  input : ∃ us, s.input ++ us = bs.map .byte ++ t.input
  out : t.out = s.out
  regLog : t.regLog = s.regLog
  driver : SameDriver s t
  mapped : t.mapped = s.mapped
  mapLog : t.mapLog = s.mapLog
  killed : t.killed = s.killed
  softBits : ∀ i ∈ softBits, bitAt t.reg i = bitAt s.reg i

theorem ReportsInvalid.nil {s : State} (hp : s.phase = .fetch) (ht : s.todo = []) :
    ReportsInvalid [] s s := by
  constructor <;> simp [hp, ht, SameDriver]

theorem ReportsInvalid.append {bs cs : List Byte} {s t u : State} (h : ReportsInvalid bs s t)
    (h' : ReportsInvalid cs t u) : ReportsInvalid (bs ++ cs) s u where
  diag := by rw [h'.diag, h.diag, List.map_append, List.append_assoc]
  phase := h'.phase
  todo := h'.todo
  pos := by rw [h'.pos, h.pos, List.length_append, Nat.add_assoc]
  input := by
    obtain ⟨us, hus⟩ := h.input
    obtain ⟨vs, hvs⟩ := h'.input
    refine ⟨us ++ vs, ?_⟩
    rw [← List.append_assoc, hus, List.append_assoc, hvs, List.map_append, List.append_assoc]
  out := h'.out.trans h.out
  regLog := h'.regLog.trans h.regLog
  driver := h.driver.trans h'.driver
  mapped := h'.mapped.trans h.mapped
  mapLog := h'.mapLog.trans h.mapLog
  killed := h'.killed.trans h.killed
  softBits i hi := (h'.softBits i hi).trans (h.softBits i hi)

/-- The step that fetches an invalid byte lists its report. -/
theorem step_fetch_invalid {s : State} {b : Byte} {rest : List InUnit} (ht : TakesStep s)
    (hp : s.phase = .fetch) (hb : isInvalidByte b = true)
    (hi : (worldMove s).input = .byte b :: rest) :
    step s = .next ((((worldMove s).consume rest).setTodo [.diagu b]).setPhase
      (.exec (.invalid b))) := by
  have hdecode : decode (.byte b) = .invalid b := (decodeByte_invalid_iff b).mpr hb
  have hfetch : ((worldMove s).consume rest).phase = .fetch := by
    rw [State.consume_phase, worldMove_phase, hp]
  rw [step_fetch ht hp hi, hdecode]
  exact (perform_fetch hfetch).trans (by rw [dispatch_eq]; rfl)

/-- The step that makes the report goes back to FETCH. -/
theorem step_report_invalid {s : State} {b : Byte} (ht : TakesStep s)
    (hp : s.phase = .exec (.invalid b)) (htodo : s.todo = [.diagu b]) :
    step s = .next ((((worldMove s).pushDiag (.unknownCmd b)).setTodo []).setPhase .fetch) := by
  rw [step_exec ht hp]
  rw [← worldMove_phase] at hp
  rw [← worldMove_todo] at htodo
  exact (perform_exec hp).trans (runTodo_cons htodo rfl)

/-- One invalid byte takes two steps (rules R100, R118). -/
theorem run_invalidByte {s : State} {b : Byte} {rest : List InUnit} {n : Nat}
    (hb : isInvalidByte b = true) (he : ended s = none) (hc : CalmFor (n + 2) s)
    (hp : s.phase = .fetch) (hi : s.input = .byte b :: rest) :
    ∃ t, run 2 s = .next t ∧ ReportsInvalid [b] s t ∧ CalmFor n t := by
  obtain ⟨hk, -⟩ := ended_none_iff.mp he
  have hfetch := step_fetch_invalid (rest := rest ++ (nextTurn s).offer.toList)
    (hc.takesStep he) hp hb (by rw [worldMove_input, hi, List.cons_append])
  generalize hu : (((worldMove s).consume (rest ++ (nextTurn s).offer.toList)).setTodo
    [.diagu b]).setPhase (.exec (.invalid b)) = u at hfetch
  have hcu : CalmFor (n + 1) u := hc.tail (by simp [← hu])
  have heu : ended u = none := ended_none_iff.mpr (by simp [← hu, hk])
  have hreport := step_report_invalid (hcu.takesStep heu) (by rw [← hu]; rfl) (by rw [← hu]; rfl)
  refine ⟨_, (run_succ 1 hfetch).trans (run_succ 0 hreport), ?_, hcu.tail (by simp)⟩
  subst hu
  constructor <;> simp +contextual [SameDriver, hi]

/-- A run of invalid bytes, byte by byte. -/
theorem run_invalidBytes {bs : List Byte} {s : State} {rest : List InUnit}
    (hbs : ∀ b ∈ bs, isInvalidByte b = true) (he : ended s = none)
    (hc : CalmFor (2 * bs.length) s) (hp : s.phase = .fetch) (ht : s.todo = [])
    (hi : s.input = bs.map .byte ++ rest) :
    ∃ t, run (2 * bs.length) s = .next t ∧ ReportsInvalid bs s t := by
  induction bs generalizing s rest with
  | nil => exact ⟨s, run_zero s, .nil hp ht⟩
  | cons b bs ih =>
    obtain ⟨hb, hbs⟩ := List.forall_mem_cons.mp hbs
    rw [List.length_cons, Nat.mul_succ] at hc ⊢
    obtain ⟨t, hrun, hreport, hct⟩ := run_invalidByte hb he hc hp hi
    have het : ended t = none := by
      obtain ⟨hk, -⟩ := ended_none_iff.mp he
      exact ended_none_iff.mpr ⟨hreport.killed.trans hk, by simp [hreport.phase]⟩
    obtain ⟨us, hus⟩ := hreport.input
    have hit : t.input = bs.map .byte ++ (rest ++ us) := by simpa [hi] using hus.symm
    obtain ⟨u, hrun', hreport'⟩ := ih hbs het hct hreport.phase hreport.todo hit
    exact ⟨u, by rw [Nat.add_comm, run_add 2 _ hrun, hrun'], hreport.append hreport'⟩

/-- Settles O40, by induction on the bytes. -/
theorem invalidBytesEachMakeOneReport : Obligations.InvalidBytesEachMakeOneReport := by
  intro bs s rest hbs he hc hp ht hi
  obtain ⟨t, hrun, h⟩ := run_invalidBytes hbs he hc hp ht hi
  obtain ⟨us, hus⟩ := h.input
  have hrest : t.input = rest ++ us := by simpa [hi] using hus.symm
  exact ⟨t, us, hrun, h.diag, h.phase, h.todo, h.pos, hrest, h.out, h.regLog, h.driver, h.mapped,
    h.mapLog, h.softBits⟩

/-! ### The end of a session -/

/-- The streams, Driver State and `pos` stay, and the host's offers only grow. -/
structure KeepsStreams (s t : State) : Prop where
  pos : t.pos = s.pos
  input : ∃ us, t.input = s.input ++ us
  out : t.out = s.out
  diag : t.diag = s.diag
  driver : SameDriver s t
  killed : t.killed = s.killed

theorem KeepsStreams.trans {s t u : State} (h : KeepsStreams s t) (h' : KeepsStreams t u) :
    KeepsStreams s u where
  pos := h'.pos.trans h.pos
  input := by
    obtain ⟨us, hus⟩ := h.input
    obtain ⟨vs, hvs⟩ := h'.input
    exact ⟨us ++ vs, by rw [hvs, hus, List.append_assoc]⟩
  out := h'.out.trans h.out
  diag := h'.diag.trans h.diag
  driver := h.driver.trans h'.driver
  killed := h'.killed.trans h.killed

/-- STOP's first step loads the disable of the TAP and reads the register (rules R161, R164). -/
theorem step_stop_rd {s : State} (ht : TakesStep s) (hp : s.phase = .stop) (htodo : s.todo = [])
    (hm : s.mapped = true) :
    step s = .next ((((worldMove s).pushReg (.rd (worldMove s).reg)).setHeld
      (some (worldMove s).reg)).setTodo [.wr .enable (enableLevel false)]) := by
  rw [step_eq_blockStep ht]
  simp only [blockStep, worldMove_phase, hp, stopStep, worldMove_todo, htodo]
  rw [← worldMove_mapped, ← State.setTodo_mapped (ops := tapEnableOps false)] at hm
  rw [runTodo_rd rfl hm]
  rfl

/-- STOP's second step writes the register and ends STOP (rules R161, R164). -/
theorem step_stop_wr {s : State} {l : Level} {v : Word} (ht : TakesStep s) (hp : s.phase = .stop)
    (htodo : s.todo = [.wr .enable l]) (hh : s.held = some v) (hm : s.mapped = true) :
    step s = .next ((((((worldMove s).setEnvReg (writeEffect (worldMove s).reg
      (insertBit Config.bEnable l v))).pushReg (.wr (insertBit Config.bEnable l v))).setHeld
      none).setTodo []).setPhase (.release .success)) := by
  rw [step_eq_blockStep ht]
  simp only [blockStep, worldMove_phase, hp, stopStep, worldMove_todo, htodo]
  rw [← worldMove_todo] at htodo
  rw [← worldMove_mapped] at hm
  rw [← worldMove_held] at hh
  exact runTodo_wr htodo hm hh

/-- `release()` is the first step of RELEASE (rules R164, R165). -/
theorem step_release {s : State} {st : Status} (ht : TakesStep s) (hp : s.phase = .release st)
    (hl : s.life = []) : step s = .next (release (nextTurn s).unmapReport st (worldMove s)) := by
  rw [step_eq_blockStep ht]
  simp only [blockStep, worldMove_phase, hp, releaseStep, worldMove_life, hl]

/-- After `release()` the pending lifecycle operations run (rules R164, R167). -/
theorem step_release_lifeOp {s : State} {st : Status} {op : LifeOp} {ops : List LifeOp}
    (ht : TakesStep s) (hp : s.phase = .release st) (hl : s.life = op :: ops) :
    step s = .next (runLifeOp op ops (worldMove s)) := by
  rw [step_eq_blockStep ht]
  simp only [blockStep, worldMove_phase, hp, releaseStep, worldMove_life, hl]

/-- STOP disables the TAP by one read-modify-write (rules R161, R162, R164). -/
theorem run_stop {s : State} {n : Nat} (he : ended s = none) (hc : CalmFor (n + 2) s)
    (hp : s.phase = .stop) (ht : s.todo = []) (hm : s.mapped = true) :
    ∃ (t : State) (v : Word), run 2 s = .next t ∧ CalmFor n t ∧ KeepsStreams s t ∧
      t.phase = .release .success ∧ t.life = s.life ∧ t.mapLog = s.mapLog ∧
      t.regLog = s.regLog ++ [.rd v, .wr (insertBit Config.bEnable (!Config.enableOn) v)] ∧
      bitAt t.reg Config.bEnable = !Config.enableOn := by
  obtain ⟨hk, -⟩ := ended_none_iff.mp he
  have hrd := step_stop_rd (hc.takesStep he) hp ht hm
  generalize hu : (((worldMove s).pushReg (.rd (worldMove s).reg)).setHeld
    (some (worldMove s).reg)).setTodo [.wr .enable (enableLevel false)] = u at hrd
  have hcu : CalmFor (n + 1) u := hc.tail (by simp [← hu])
  have heu : ended u = none := ended_none_iff.mpr (by simp [← hu, hk, hp])
  have hwr := step_stop_wr (l := enableLevel false) (v := (worldMove s).reg) (hcu.takesStep heu)
    (by simp [← hu, hp]) (by rw [← hu]; rfl) (by rw [← hu]; rfl) (by simp [← hu, hm])
  have henable : enableLevel false = !Config.enableOn := rfl
  have hbit : Config.bEnable ∉ inputBits := bitOf_not_input .enable
  refine ⟨_, (worldMove s).reg, (run_succ 1 hrd).trans (run_succ 0 hwr), hcu.tail (by simp), ?_⟩
  subst hu
  refine ⟨?_, ?_⟩
  · constructor <;> simp [SameDriver, List.append_assoc]
  · simp [henable, hbit]

/-- RELEASE(SUCCESS) releases the mapping and exits (rules R164, R165). -/
theorem run_release_success {s : State} (he : ended s = none) (hc : CalmFor 2 s)
    (hp : s.phase = .release .success) (hl : s.life = []) :
    ∃ t, run 2 s = .next t ∧ KeepsStreams s t ∧ t.phase = .exited .success ∧
      t.mapped = false ∧ t.mapLog = s.mapLog ++ [.released] ∧ t.regLog = s.regLog ∧
      ∀ i ∈ softBits, bitAt t.reg i = bitAt s.reg i := by
  obtain ⟨hk, -⟩ := ended_none_iff.mp he
  have hrel := step_release (hc.takesStep he) hp hl
  generalize hu : release (nextTurn s).unmapReport .success (worldMove s) = u at hrel
  have hcu : CalmFor 1 u := hc.tail (by rw [← hu]; rfl)
  have heu : ended u = none := ended_none_iff.mpr (by simp [← hu, release, hk, hp])
  have hexit := step_release_lifeOp (hcu.takesStep heu) (by simp [← hu, release, hp]; rfl)
    (by rw [← hu]; rfl)
  refine ⟨_, (run_succ 1 hrel).trans (run_succ 0 hexit), ?_⟩
  subst hu
  refine ⟨?_, ?_⟩
  · constructor <;> simp [SameDriver, runLifeOp, release]
  · simp +contextual [runLifeOp, release]

/-- The fetch of QUIT or EOS consumes its unit and goes to STOP (rules R110, R111). -/
theorem step_endsLoop {s : State} {u : InUnit} {rest : List InUnit} (ht : TakesStep s)
    (hp : s.phase = .fetch) (hi : s.input = u :: rest) (hu : EndsLoop (decode u)) :
    ∃ t, step s = .next t ∧ KeepsStreams (s.consume rest) t ∧ t.phase = .stop ∧ t.todo = [] ∧
      t.mapped = s.mapped ∧ t.life = s.life ∧ t.mapLog = s.mapLog ∧ t.regLog = s.regLog ∧
      t.turns = s.turns.tail := by
  have hin : (worldMove s).input = u :: (rest ++ (nextTurn s).offer.toList) := by
    rw [worldMove_input, hi, List.cons_append]
  have hstop := execCmd_endsLoop hu
    (s := (worldMove s).consume (rest ++ (nextTurn s).offer.toList))
    (by rw [State.consume_phase, worldMove_phase, hp])
  refine ⟨_, (step_fetch ht hp hin).trans hstop, ?_, by simp⟩
  constructor <;> simp [SameDriver]

/-- Settles O39: the fetch goes to STOP, STOP disables the TAP, and RELEASE releases the mapping and
exits. -/
theorem quitAndEosEndTheSession : Obligations.QuitAndEosEndTheSession := by
  intro s u rest he hc hp hm hl hi hends
  obtain ⟨hk, -⟩ := ended_none_iff.mp he
  obtain ⟨a, hfetch, hsa, hpa, hta, hma, hla, hmapa, hloga, hturns⟩ :=
    step_endsLoop (hc.takesStep he) hp hi hends
  have hka : a.killed = false := hsa.killed.trans hk
  have hea : ended a = none := ended_none_iff.mpr ⟨hka, by simp [hpa]⟩
  obtain ⟨b, v, hrunb, hcb, hab, hpb, hlb, hmapb, hlogb, henb⟩ :=
    run_stop hea (hc.tail hturns) hpa hta (hma.trans hm)
  have hkb : b.killed = false := hab.killed.trans hka
  have heb : ended b = none := ended_none_iff.mpr ⟨hkb, by simp [hpb]⟩
  obtain ⟨t, hrunt, hbt, hpt, hmt, hmapt, hlogt, hsoft⟩ :=
    run_release_success heb hcb hpb (hlb.trans (hla.trans hl))
  have hrun : run 5 s = .next t := by
    rw [run_succ 4 hfetch, run_add 2 2 hrunb, hrunt]
  have hexit : exitOutput t = some (.code Config.exitOk) := by
    simp [exitOutput, hbt.killed, hkb, hpt]
  have hbit : bitAt t.reg Config.bEnable = !Config.enableOn :=
    (hsoft _ (bitOf_mem_softBits .enable)).trans henb
  have hst := (hsa.trans hab).trans hbt
  obtain ⟨us, hus⟩ := hst.input
  exact ⟨t, v, insertBit Config.bEnable (!Config.enableOn) v, us, hrun, hpt, hexit, hmt,
    by rw [hmapt, hmapb, hmapa], hst.pos, hus, by rw [hlogt, hlogb, hloga],
    fun i => bitAt_insertBit _ i _ v, hbit, hst.driver, hst.out, hst.diag⟩

end Sys2Proof.Machine
end

section
/-! PROOFS of the statements from spec/41_signal_driver.md, part 1: the list of a WRITE (rules R131,
R136 to R138), and what one step of a WRITE does and leaves alone (rules R132 to R135). -/

namespace Sys2Proof.Machine

/-! ### The lines a WRITE lists -/

/-- Rule R131, with Driver State's two reasons to write a line. -/
theorem mustWrite_iff {s : State} {line : Line} {l : Level} :
    mustWrite s line l = true ↔ s.first = true ∨ lastDriven s line ≠ some l := by
  simp [mustWrite]

theorem lineOps_mustWrite (s : State) (line : Line) (l : Level) :
    lineOps (mustWrite s line l) line l =
      if s.first = true ∨ lastDriven s line ≠ some l then [.rd line l, .wr line l] else [] := by
  simp only [lineOps, mustWrite_iff]

theorem clockOps_mustWrite (s : State) (c : Level) :
    clockOps (mustWrite s .clock c) c =
      if s.first = true ∨ lastDriven s .clock ≠ some c
      then [.rd .clock c, .wr .clock c, .poll (ackLevel c)] else [] := by
  simp only [clockOps, mustWrite_iff]

/-- Every list of a WRITE ends with FIN (rule R138). -/
theorem expandWrite_ne_nil (c m d : Level) (s : State) : expandWrite c m d s ≠ [] := by
  simp [expandWrite, driverOps]

/-- The dispatch of a WRITE enters EXEC, since FIN is always left to do (rules R100, R138). -/
theorem exec_write_fetch {c m d : Level} {s : State} (hp : s.phase = .fetch) :
    exec (.write c m d) s =
      .next ((s.setTodo (expandWrite c m d s)).setPhase (.exec (.instr (.write c m d)))) := by
  have hdispatch : exec (.write c m d) s = .next (dispatch _ (expandWrite c m d s) .fetch s) :=
    perform_fetch hp
  rw [hdispatch, dispatch_eq, if_neg (expandWrite_ne_nil c m d s)]

/-- Settles O17: the list line by line, in either order of mode and data. -/
theorem writeExpandsByDriverState : Obligations.WriteExpandsByDriverState := by
  intro c m d s hp modePart dataPart clockPart mdPart
  have hmode : lineOps (mustWrite s .mode m) .mode m = modePart := lineOps_mustWrite s .mode m
  have hdata : lineOps (mustWrite s .data d) .data d = dataPart := lineOps_mustWrite s .data d
  have hclock : clockOps (mustWrite s .clock c) c = clockPart := clockOps_mustWrite s c
  have hmd : (mdLines Config.mdOrder).flatMap (fun line =>
      lineOps (mustWrite s line (requested c m d line)) line (requested c m d line)) = mdPart := by
    simp only [mdPart]
    cases Config.mdOrder <;> simp [mdLines, requested, hmode, hdata]
  have hlist : expandWrite c m d s = mdPart ++ clockPart ++ [.fin] := by
    rw [← hmd, ← hclock]; rfl
  rw [exec_write_fetch hp, hlist]
  rfl

/-! ### The order of the list -/

/-- `a` before `b` respects rule R136: after an access of clock, or the poll, only clock is
accessed. -/
def ClockLast (c : Level) (a b : MicroOp) : Prop :=
  a = .rd .clock c ∨ a = .wr .clock c ∨ a = .poll (ackLevel c) →
    ∀ line l, b = .rd line l ∨ b = .wr line l → line = .clock

/-- The operations before the clock's access mode or data. -/
theorem mem_mdOps {o : MdOrder} {w : Line → Bool} {f : Line → Level} {op : MicroOp}
    (h : op ∈ (mdLines o).flatMap fun line => lineOps (w line) line (f line)) :
    ∃ line l, line ≠ .clock ∧ (op = .rd line l ∨ op = .wr line l) := by
  obtain ⟨line, hline, hop⟩ := List.mem_flatMap.mp h
  have hne : line ≠ .clock := by
    rintro rfl
    cases o <;> simp [mdLines] at hline
  unfold lineOps at hop
  split_ifs at hop
  · exact ⟨line, f line, hne, by simpa using hop⟩
  · simp at hop

/-- The clock's operations and FIN access no other line. -/
theorem line_eq_clock_of_mem {written : Bool} {c l : Level} {op : MicroOp} {line : Line}
    (h : op ∈ clockOps written c ++ [.fin]) (hop : op = .rd line l ∨ op = .wr line l) :
    line = .clock := by
  rcases hop with rfl | rfl <;> cases written <;> simp [clockOps] at h <;> exact h.1

/-- Mode and data come first, and after them only clock is accessed. -/
theorem driverOps_clockLast (o : MdOrder) (w : Line → Bool) (c m d : Level) :
    (driverOps o w c m d).Pairwise (ClockLast c) := by
  have first {a b : MicroOp} (ha : a ∈ (mdLines o).flatMap fun line =>
      lineOps (w line) line (requested c m d line)) : ClockLast c a b := by
    obtain ⟨line, l, hne, rfl | rfl⟩ := mem_mdOps ha <;> simp [ClockLast, hne]
  have last {a b : MicroOp} (hb : b ∈ clockOps (w .clock) c ++ [.fin]) : ClockLast c a b :=
    fun _ line l hop => line_eq_clock_of_mem hb hop
  rw [driverOps, List.append_assoc, List.pairwise_append]
  exact ⟨List.pairwise_of_forall_mem_list fun a ha b _ => first ha,
    List.pairwise_of_forall_mem_list fun a _ b hb => last hb, fun a ha b _ => first ha⟩

/-- Settles O24, by the order of any two operations of the list. -/
theorem clockComesAfterModeAndData : Obligations.ClockComesAfterModeAndData := by
  intro c m d s pre post op hlist hop op' hmem
  have hpair : (pre ++ op :: post).Pairwise (ClockLast c) :=
    hlist ▸ driverOps_clockLast Config.mdOrder _ c m d
  obtain ⟨-, htail, -⟩ := List.pairwise_append.mp hpair
  exact (List.pairwise_cons.mp htail).1 op' hmem hop

/-! ### The accesses of the list -/

theorem accessCount_append (ops ops' : List MicroOp) :
    accessCount (ops ++ ops') = accessCount ops + accessCount ops' := List.countP_append

theorem accessCount_cons (op : MicroOp) (ops : List MicroOp) :
    accessCount (op :: ops) = (if touchesRegister op = true then 1 else 0) + accessCount ops := by
  rw [accessCount, List.countP_cons, Nat.add_comm]; rfl

theorem accessCount_lineOps (written : Bool) (line : Line) (l : Level) :
    accessCount (lineOps written line l) = if written = true then 2 else 0 := by
  cases written <;> rfl

theorem accessCount_clockOps (written : Bool) (c : Level) :
    accessCount (clockOps written c) = if written = true then 3 else 0 := by
  cases written <;> rfl

/-- Rule R137 with one poll read: the order of mode and data does not matter. -/
theorem accessCount_driverOps (o : MdOrder) (w : Line → Bool) (c m d : Level) :
    accessCount (driverOps o w c m d) = (if w .mode = true then 2 else 0) +
      (if w .data = true then 2 else 0) + (if w .clock = true then 3 else 0) := by
  have hfin : accessCount [.fin] = 0 := rfl
  cases o
  · simp only [driverOps, mdLines, List.flatMap_cons, List.flatMap_nil, List.append_nil,
      accessCount_append, accessCount_lineOps, accessCount_clockOps, hfin, Nat.add_zero]
  · simp only [driverOps, mdLines, List.flatMap_cons, List.flatMap_nil, List.append_nil,
      accessCount_append, accessCount_lineOps, accessCount_clockOps, hfin, Nat.add_zero]
    rw [Nat.add_comm (if w .data = true then 2 else 0)]

/-- Settles O25. -/
theorem writeAccessCount : Obligations.WriteAccessCount := by
  intro c m d s
  simp only [expandWrite, accessCount_driverOps, mustWrite_iff]
  rfl

/-! ### The poll and FIN -/

/-- Settles O20: the poll's read leaves everything else alone. -/
theorem pollEndsOnFirstMatchingRead : Obligations.PollEndsOnFirstMatchingRead := by
  intro c m d s e op rest hp ht hm
  rw [exec_write_running hp, runTodo_poll ht hm]
  rfl

/-- Settles O21: nothing is left after FIN, so the phase moves on. -/
theorem finEndsTheCall : Obligations.FinEndsTheCall := by
  intro c m d s hp ht
  have hop : runOp .fin [] s = .ok ((s.setFirst false).setTodo []) := rfl
  rw [exec_write_running hp, runTodo_cons ht hop, settle_eq, if_pos (State.setTodo_todo _ _)]
  rfl

/-! ### The frame -/

/-- Everything a step of a WRITE can do when it answers: its dispatch, which only lists operations,
or the operation at the head of what is left. -/
theorem exec_write_cases {c m d : Level} {s t : State} (hinv : SessionInv s)
    (h : exec (.write c m d) s = .next t) :
    (opFields t = opFields s ∧ t.diag = s.diag ∧ SameSession s t ∧ SameWorld s t) ∨
    ∃ w op rest s', s.todo = op :: rest ∧ op :: rest <:+ driverOps Config.mdOrder w c m d ∧
      runOp op rest s = .ok s' ∧ t = settle .fetch s' := by
  rcases perform_cases h with ⟨hp, -⟩ | ⟨hp, hrun⟩
  · rw [exec_write_fetch hp, Host.Outcome.next.injEq] at h
    subst h
    exact .inl ⟨rfl, rfl, ⟨rfl, rfl, rfl, rfl⟩, rfl, rfl, rfl, rfl⟩
  · obtain ⟨hne, w, hleft⟩ := hinv.exec_left hp
    rcases runTodo_cases hrun with ⟨hnil, _⟩ | ⟨op, rest, s', htodo, hop, ht⟩
    · exact absurd hnil hne
    · exact .inr ⟨w, op, rest, s', htodo, htodo ▸ hleft, hop, ht⟩

/-- Only EMIT sends a byte (rule R150). -/
theorem runOp_out_eq {op : MicroOp} {rest : List MicroOp} {s t : State} (hop : op ≠ .emit)
    (h : runOp op rest s = .ok t) : t.out = s.out := by
  rcases runOp_cases h with ⟨_, _, _, _, rfl⟩ | ⟨_, _, _, rfl, _⟩ | ⟨_, _, _, _, rfl⟩ |
    ⟨_, _, _, _, rfl⟩ | ⟨_, rfl⟩ | ⟨_, _, rfl⟩ | ⟨_, hemit, _⟩ | ⟨_, _, rfl⟩
  · rfl
  · obtain ⟨_, -, -, -, -, -, hout, -⟩ := runOp_wr h
    exact hout
  · rfl
  · rfl
  · rfl
  · rfl
  · exact absurd hemit hop
  · rfl

/-- No operation of a WRITE sends a byte or reports an event (rule R130). -/
theorem runOp_write_streams {o : MdOrder} {w : Line → Bool} {c m d : Level} {op : MicroOp}
    {rest : List MicroOp} {s t : State} (hleft : op :: rest <:+ driverOps o w c m d)
    (h : runOp op rest s = .ok t) : t.out = s.out ∧ t.diag = s.diag := by
  have hop : op ≠ .emit ∧ ∀ b, op ≠ .diagu b := by
    rcases driverOps_suffix_cases hleft with ⟨_, _, rfl, _⟩ | ⟨_, rfl, _⟩ | ⟨rfl, _⟩ | ⟨rfl, _⟩ <;>
      exact ⟨nofun, nofun⟩
  obtain ⟨hemit, hdiagu⟩ := hop
  exact ⟨runOp_out_eq hemit h, ((runOp_diag h).resolve_right fun ⟨b, hb, _⟩ => hdiagu b hb).2⟩

/-- Only WR changes the register. -/
theorem runOp_reg_changed {op : MicroOp} {rest : List MicroOp} {s t : State}
    (h : runOp op rest s = .ok t) (hne : t.reg ≠ s.reg) : ∃ line l, op = .wr line l := by
  rcases runOp_cases h with ⟨_, _, _, _, rfl⟩ | ⟨line, l, _, hop, _⟩ | ⟨_, _, _, _, rfl⟩ |
    ⟨_, _, _, _, rfl⟩ | ⟨_, rfl⟩ | ⟨_, _, rfl⟩ | ⟨_, _, _, rfl⟩ | ⟨_, _, rfl⟩
  · exact absurd rfl hne
  · exact ⟨line, l, hop⟩
  all_goals exact absurd rfl hne

/-- A bit that an operation changes is the line's bit or an unrelated one: the other software-driven
bits are the same in the held word, and the input bits are not written (rules R54, R55). -/
theorem runOp_bit_changed {op : MicroOp} {rest : List MicroOp} {s t : State} {i : BitIdx}
    (hm : LineMirror s) (h : runOp op rest s = .ok t) (hne : bitAt t.reg i ≠ bitAt s.reg i) :
    i ∉ inputBits ∧ ∃ line l v, op = .wr line l ∧ s.held = some v ∧
      ((i = bitOf line ∧ bitAt t.reg i = l) ∨ (i ∉ softBits ∧ bitAt t.reg i = bitAt v i)) := by
  obtain ⟨line, l, rfl⟩ := runOp_reg_changed h fun hreg => hne (by rw [hreg])
  obtain ⟨v, hv, hreg, -⟩ := runOp_wr h
  obtain ⟨-, hword⟩ := hm
  have hbit : bitAt t.reg i = if i ∈ inputBits then bitAt s.reg i
      else if i = bitOf line then l else bitAt v i := by
    rw [hreg, bitAt_writeEffect, bitAt_insertBit]
  have hin : i ∉ inputBits := fun hin => hne (by rw [hbit, if_pos hin])
  rw [if_neg hin] at hbit
  refine ⟨hin, line, l, v, rfl, hv, ?_⟩
  by_cases hline : i = bitOf line
  · exact .inl ⟨hline, by rw [hbit, if_pos hline]⟩
  · rw [if_neg hline] at hbit
    exact .inr ⟨fun hsoft => hne (hbit.trans (hword v hv i hsoft)), hbit⟩

/-- A WRITE does not drive ENABLE (rule R160). -/
theorem line_ne_enable_of_wr {o : MdOrder} {w : Line → Bool} {c m d l : Level} {line : Line}
    {rest : List MicroOp} (h : .wr line l :: rest <:+ driverOps o w c m d) : line ≠ .enable := by
  rcases driverOps_suffix_cases h with ⟨_, _, hop, _⟩ | ⟨_, hop, hne, _⟩ | ⟨hop, _⟩ | ⟨hop, _⟩ <;>
    cases hop
  exact hne

/-- A last-driven level changes only in its line's WR (rules R132, R133). -/
theorem runOp_level_changed {op : MicroOp} {rest : List MicroOp} {s t : State} {line : Line}
    (h : runOp op rest s = .ok t) (hne : lastDriven t line ≠ lastDriven s line) :
    ∃ l, op = .wr line l ∧ lastDriven t line = some l := by
  rcases runOp_driver h with ⟨-, hsame⟩ | ⟨-, -, hlast⟩ | ⟨line', l, hop, -, -, hlast⟩
  · exact absurd (hsame.lastDriven_eq line) hne
  · exact absurd (hlast line) hne
  · by_cases hline : line = line'
    · subst hline
      exact ⟨l, hop, by rw [hlast, if_pos rfl]⟩
    · exact absurd (by rw [hlast, if_neg hline]) hne

/-- `first` changes only in FIN (rule R135). -/
theorem runOp_first_changed {op : MicroOp} {rest : List MicroOp} {s t : State}
    (h : runOp op rest s = .ok t) (hne : t.first ≠ s.first) : op = .fin ∧ t.first = false := by
  rcases runOp_driver h with ⟨-, hfirst, -⟩ | ⟨hop, hfirst, -⟩ | ⟨_, _, -, -, hfirst, -⟩
  · exact absurd hfirst hne
  · exact ⟨hop, hfirst⟩
  · exact absurd hfirst hne

/-- Settles O22: the dispatch only lists operations. A running WRITE makes one: only a WR changes a
bit or a last-driven level, and only FIN changes `first`. -/
theorem writeFrame : Obligations.WriteFrame := by
  intro c m d s t hinv hm h
  rcases exec_write_cases hinv h with ⟨hf, hdiag, hsession, hworld⟩ |
    ⟨w, op, rest, s', htodo, hleft, hop, rfl⟩
  · have hdriver := sameDriver_of_opFields hf
    simp only [opFields, Prod.mk.injEq] at hf
    obtain ⟨-, -, hreg, hout, -⟩ := hf
    exact ⟨hout, hdiag, hsession, hworld, fun i hne => absurd (by rw [hreg]) hne,
      fun line hne => absurd (hdriver.lastDriven_eq line) hne, fun hne => absurd hdriver.1 hne⟩
  · obtain ⟨hout, hdiag⟩ := runOp_write_streams hleft hop
    obtain ⟨-, hsession, hworld⟩ := runOp_frame hop
    have hlast (line : Line) : lastDriven (settle .fetch s') line = lastDriven s' line :=
      (sameDriver_of_opFields (opFields_settle .fetch s')).lastDriven_eq line
    simp only [hlast]
    rw [settle_eq, htodo]
    refine ⟨hout, hdiag, hsession, hworld, fun i hne => ?_, fun line hne => ?_, fun hne => ?_⟩
    · obtain ⟨hin, line, l, v, rfl, hv, hbit⟩ := runOp_bit_changed hm hop hne
      refine ⟨hin, fun henable => ?_, line, l, rest, v, rfl, hv, hbit⟩
      rcases hbit with ⟨hline, -⟩ | ⟨hsoft, -⟩
      · exact line_ne_enable_of_wr hleft ((bitOf_eq_iff _ _).mp (hline.symm.trans henable))
      · exact hsoft (henable ▸ bitOf_mem_softBits .enable)
    · obtain ⟨l, rfl, hlevel⟩ := runOp_level_changed hop hne
      exact ⟨l, rest, rfl, hlevel⟩
    · obtain ⟨rfl, hfirst⟩ := runOp_first_changed hop hne
      rcases driverOps_head hleft with ⟨-, rfl⟩ | ⟨hfin, -⟩
      · exact ⟨rfl, hfirst⟩
      · exact absurd rfl hfin

end Sys2Proof.Machine
end

section
/-! PROOFS of the statements from spec/41_signal_driver.md, part 2: whole WRITE commands, from the
fetch to FIN (rules R130, R141, R142). -/

namespace Sys2Proof.Machine

/-! ### Single steps -/

/-- The step that fetches a WRITE consumes its byte and lists what Driver State calls for (rules
R100, R138). -/
theorem step_fetch_write {c m d : Level} {s : State} {rest : List InUnit} (ht : TakesStep s)
    (hp : s.phase = .fetch) (hi : s.input = .byte (encode (.write c m d)) :: rest) :
    step s = .next ((((worldMove s).consume (rest ++ (nextTurn s).offer.toList)).setTodo
      (expandWrite c m d s)).setPhase (.exec (.instr (.write c m d)))) := by
  generalize hus : rest ++ (nextTurn s).offer.toList = us
  have hin : (worldMove s).input = .byte (encode (.write c m d)) :: us := by
    rw [worldMove_input, hi, List.cons_append, hus]
  have hdecode : decode (.byte (encode (.write c m d))) = .instr (.write c m d) :=
    decodeByte_encode _
  have hfetch : ((worldMove s).consume us).phase = .fetch := by
    rw [State.consume_phase, worldMove_phase, hp]
  have hsame : SameDriver s ((worldMove s).consume us) := by simp [SameDriver]
  have hlist := expandWrite_congr hsame c m d
  calc step s = exec (.write c m d) ((worldMove s).consume us) := by
        rw [step_fetch ht hp hin, hdecode]; rfl
    _ = _ := by rw [exec_write_fetch hfetch, hlist]

/-- FIN's step goes back to FETCH (rules R135, R139). -/
theorem step_fin {c m d : Level} {s : State} (ht : TakesStep s)
    (hp : s.phase = .exec (.instr (.write c m d))) (htodo : s.todo = [.fin]) :
    step s = .next { worldMove s with first := false, todo := [], phase := .fetch } :=
  (step_exec ht hp).trans (finEndsTheCall c m d (worldMove s) hp htodo)

/-! ### A repeated WRITE -/

/-- With every level as requested only FIN is left (rules R131, R142). -/
theorem expandWrite_repeated {c m d : Level} {s : State} (hfirst : s.first = false)
    (hclk : s.lastClk = some c) (hmode : s.lastMode = some m) (hdata : s.lastData = some d) :
    expandWrite c m d s = [.fin] := by
  have hskip (line : Line) (hline : line ≠ .enable) :
      mustWrite s line (requested c m d line) = false := by
    cases line with
    | mode => simp [mustWrite, lastDriven, requested, hfirst, hmode]
    | data => simp [mustWrite, lastDriven, requested, hfirst, hdata]
    | clock => simp [mustWrite, lastDriven, requested, hfirst, hclk]
    | enable => exact absurd rfl hline
  cases ho : Config.mdOrder <;>
    simp [expandWrite, driverOps, ho, mdLines, lineOps, clockOps, hskip]

/-- Settles O23: the fetch lists FIN only, and FIN accesses nothing. -/
theorem repeatedWriteMakesNoAccess : Obligations.RepeatedWriteMakesNoAccess := by
  intro c m d s rest he hc hp hi hfirst hclk hmode hdata
  obtain ⟨hk, -⟩ := ended_none_iff.mp he
  have hfetch := step_fetch_write (hc.takesStep he) hp hi
  rw [expandWrite_repeated hfirst hclk hmode hdata] at hfetch
  generalize hu : (((worldMove s).consume (rest ++ (nextTurn s).offer.toList)).setTodo
    [.fin]).setPhase (.exec (.instr (.write c m d))) = u at hfetch
  have hcu : CalmFor 1 u := hc.tail (by simp [← hu])
  have heu : ended u = none := ended_none_iff.mpr (by simp [← hu, hk])
  have hfin := step_fin (hcu.takesStep heu) (by rw [← hu]; rfl) (by rw [← hu]; rfl)
  refine ⟨_, (run_succ 1 hfetch).trans (run_succ 0 hfin), rfl, rfl, ?_⟩
  subst hu
  simp [SameDriver, hfirst]

/-! ### A running WRITE under the acknowledge -/

/-- The acknowledge is still presented in the turns after the first. -/
theorem AckFor.tail {n : Nat} {e : Level} {s t : State} (h : AckFor (n + 1) e s)
    (ht : t.turns = s.turns.tail) : AckFor n e t := by
  intro x hx
  rw [ht] at hx
  cases hs : s.turns with
  | nil => simp [hs] at hx
  | cons y ys =>
    rw [hs, List.tail_cons] at hx
    exact h x (by rw [hs, List.take_succ_cons]; exact List.mem_cons_of_mem y hx)

/-- In a settled turn that acknowledges, the block's step sees the acknowledge. -/
theorem AckFor.clockAck {n : Nat} {e : Level} {s : State} (h : AckFor (n + 1) e s)
    (hc : CalmFor (n + 1) s) : bitAt (worldMove s).reg Config.bClockAck = e := by
  obtain ⟨t, ts, hturns, -⟩ := calmFor_succ hc
  rw [worldMove_reg, bitAt_envMove, if_neg bClockAck_not_soft]
  simp only [nextTurn, hturns]
  exact h t (by simp [hturns])

/-- A WRITE of which `ops` is left: in EXEC while something is, and back in FETCH with `first`
cleared when nothing is. -/
structure WriteAt (c m d : Level) (ops : List MicroOp) (s : State) : Prop where
  phase : s.phase = if ops = [] then .fetch else .exec (.instr (.write c m d))
  todo : s.todo = ops
  first : ops = [] → s.first = false
  mapped : s.mapped = true
  alive : s.killed = false
  held : s.held.isSome = usesHeld ops
  mirror : LineMirror s
  served : Served c m d ops s

/-- From `s` to `t` the block makes `n` register accesses, and consumes, sends and reports
nothing. -/
structure OnlyAccesses (n : Nat) (s t : State) : Prop where
  count : t.regLog.length = s.regLog.length + n
  pos : t.pos = s.pos
  out : t.out = s.out
  diag : t.diag = s.diag

theorem OnlyAccesses.trans {m n : Nat} {s t u : State} (h : OnlyAccesses m s t)
    (h' : OnlyAccesses n t u) : OnlyAccesses (m + n) s u where
  count := by rw [h'.count, h.count, Nat.add_assoc]
  pos := h'.pos.trans h.pos
  out := h'.out.trans h.out
  diag := h'.diag.trans h.diag

/-- A turn accesses nothing. -/
theorem OnlyAccesses.of_worldMove {n : Nat} {s t : State} (h : OnlyAccesses n (worldMove s) t) :
    OnlyAccesses n s t := ⟨h.count, h.pos, h.out, h.diag⟩

theorem Served.congr {c m d : Level} {ops : List MicroOp} {s t : State} (h : Served c m d ops s)
    (hlast : ∀ line, lastDriven t line = lastDriven s line) : Served c m d ops t :=
  fun line hl hmem => (hlast line).trans (h line hl hmem)

theorem writeAt_worldMove {c m d : Level} {ops : List MicroOp} {s : State}
    (h : WriteAt c m d ops s) : WriteAt c m d ops (worldMove s) where
  phase := (worldMove_phase s).trans h.phase
  todo := (worldMove_todo s).trans h.todo
  first hnil := (worldMove_first s).trans (h.first hnil)
  mapped := (worldMove_mapped s).trans h.mapped
  alive := (worldMove_killed s).trans h.alive
  held := (congrArg Option.isSome (worldMove_held s)).trans h.held
  mirror := lineMirror_worldMove h.mirror
  served := h.served.congr (sameDriver_worldMove s).lastDriven_eq

theorem WriteAt.not_ended {c m d : Level} {ops : List MicroOp} {s : State}
    (h : WriteAt c m d ops s) : ended s = none := by
  refine ended_none_iff.mpr ⟨h.alive, fun st => ?_⟩
  rw [h.phase]
  split_ifs <;> simp

/-- An operation whose poll, if it is one, finds its acknowledge drops itself from the list. -/
theorem runOp_todo_acknowledged {op : MicroOp} {rest : List MicroOp} {s t : State}
    (hack : ∀ e, op = .poll e → bitAt s.reg Config.bClockAck = e)
    (h : runOp op rest s = .ok t) : t.todo = rest := by
  rcases runOp_cases h with ⟨_, _, _, _, rfl⟩ | ⟨_, _, _, _, _, _, rfl⟩ | ⟨_, _, _, _, rfl⟩ |
    ⟨e, he, _, hne, rfl⟩ | ⟨_, rfl⟩ | ⟨_, _, rfl⟩ | ⟨_, _, _, rfl⟩ | ⟨_, _, rfl⟩
  · rfl
  · rfl
  · rfl
  · exact absurd (hack e he) hne
  · rfl
  · rfl
  · rfl
  · rfl

/-- An operation that touches the register records one access, any other none (rules R39, R137). -/
theorem runOp_regLog_length {op : MicroOp} {rest : List MicroOp} {s t : State}
    (h : runOp op rest s = .ok t) :
    t.regLog.length = s.regLog.length + if touchesRegister op = true then 1 else 0 := by
  rcases runOp_cases h with ⟨_, _, rfl, _, rfl⟩ | ⟨_, _, _, rfl, _⟩ | ⟨_, rfl, _, _, rfl⟩ |
    ⟨_, rfl, _, _, rfl⟩ | ⟨rfl, rfl⟩ | ⟨rfl, _, rfl⟩ | ⟨_, rfl, _, rfl⟩ | ⟨_, rfl, rfl⟩
  · exact List.length_append
  · obtain ⟨_, -, -, hlog, -⟩ := runOp_wr h
    rw [hlog]
    exact List.length_append
  · exact List.length_append
  · exact List.length_append
  · rfl
  · exact List.length_append
  · rfl
  · rfl

/-- In a WRITE a word is held exactly from an RD to its WR (rule R138). -/
theorem runOp_write_held {o : MdOrder} {w : Line → Bool} {c m d : Level} {op : MicroOp}
    {rest : List MicroOp} {s t : State} (hleft : op :: rest <:+ driverOps o w c m d)
    (hheld : s.held.isSome = usesHeld (op :: rest)) (h : runOp op rest s = .ok t) :
    t.held.isSome = usesHeld rest := by
  rcases driverOps_suffix_cases hleft with ⟨_, _, rfl, _, rfl⟩ | ⟨_, rfl, _, _, hnext, _⟩ |
    ⟨rfl, rfl⟩ | ⟨rfl, rfl⟩
  · rcases runOp_cases h with ⟨_, _, _, _, rfl⟩ | ⟨_, _, _, hop, _⟩ | ⟨_, hop, _⟩ | ⟨_, hop, _⟩ |
      ⟨hop, _⟩ | ⟨hop, _⟩ | ⟨_, hop, _⟩ | ⟨_, hop, _⟩
    · rfl
    all_goals cases hop
  · obtain ⟨_, -, -, -, hnone, -⟩ := runOp_wr h
    rw [hnone, hnext]
    rfl
  · rcases runOp_cases h with ⟨_, _, hop, _⟩ | ⟨_, _, _, hop, _⟩ | ⟨_, _, _, _, rfl⟩ |
      ⟨_, _, _, _, rfl⟩ | ⟨hop, _⟩ | ⟨hop, _⟩ | ⟨_, hop, _⟩ | ⟨_, hop, _⟩
    · cases hop
    · cases hop
    · exact hheld
    · exact hheld
    all_goals cases hop
  · cases h
    exact hheld

/-- The operation at the head of a WRITE leaves every line served whose write is no longer to
come (rule R141). -/
theorem runOp_write_served {o : MdOrder} {w : Line → Bool} {c m d : Level} {op : MicroOp}
    {rest : List MicroOp} {s t : State} (hleft : op :: rest <:+ driverOps o w c m d)
    (hs : Served c m d (op :: rest) s) (hops : s.todo = op :: rest) (htodo : t.todo = rest)
    (h : runOp op rest s = .ok t) : Served c m d rest t := by
  rcases driverOps_head hleft with ⟨rfl, rfl⟩ | ⟨hfin, -, hwr⟩
  · cases h
    exact fun line hl _ => Eq.trans (by cases line <;> rfl) (hs line hl (by simp))
  · exact htodo ▸ runOp_served hs hops hfin hwr h

/-- One operation of a WRITE, its acknowledge being present (rule R138). -/
theorem runTodo_writeAt {c m d : Level} {w : Line → Bool} {op : MicroOp} {rest : List MicroOp}
    {s : State} (hleft : op :: rest <:+ driverOps Config.mdOrder w c m d)
    (hat : WriteAt c m d (op :: rest) s) (hack : bitAt s.reg Config.bClockAck = ackLevel c) :
    ∃ t, runTodo .fetch s = .next t ∧ WriteAt c m d rest t ∧
      OnlyAccesses (if touchesRegister op = true then 1 else 0) s t ∧ t.turns = s.turns := by
  obtain ⟨t, hop⟩ := runOp_answers rest hat.mapped hat.held
  have hpoll (e : Level) (he : op = .poll e) : bitAt s.reg Config.bClockAck = e := by
    rcases driverOps_suffix_cases hleft with ⟨_, _, rfl, _⟩ | ⟨_, rfl, _⟩ | ⟨rfl, _⟩ | ⟨rfl, _⟩ <;>
      cases he
    exact hack
  have htodo := runOp_todo_acknowledged hpoll hop
  obtain ⟨hphase, ⟨hmapped, hpos, -⟩, -, hturns, -, hkilled⟩ := runOp_frame hop
  obtain ⟨hout, hdiag⟩ := runOp_write_streams hleft hop
  have hheld := runOp_write_held hleft hat.held hop
  have hcount := runOp_regLog_length hop
  have hfields := opFields_settle .fetch t
  refine ⟨settle .fetch t, runTodo_cons hat.todo hop, ?_, ?_, ?_⟩
  · have hmirror := (runOp_lineMirror hat.mirror hop).of_opFields hfields
    have hserved := (runOp_write_served hleft hat.served hat.todo htodo hop).congr
      (sameDriver_of_opFields hfields).lastDriven_eq
    have hfirst (hnil : rest = []) : t.first = false := by
      rcases driverOps_head hleft with ⟨rfl, -⟩ | ⟨-, hne, -⟩
      · cases hop; rfl
      · exact absurd hnil hne
    rw [settle_eq] at hmirror hserved ⊢
    exact {
      phase := by rw [State.setPhase_phase, htodo, hphase, hat.phase]; rfl
      todo := htodo
      first := hfirst
      mapped := hmapped.trans hat.mapped
      alive := hkilled.trans hat.alive
      held := hheld
      mirror := hmirror
      served := hserved }
  · rw [settle_eq]
    exact ⟨hcount, hpos, hout, hdiag⟩
  · rw [settle_eq]
    exact hturns

/-- Acknowledged, a WRITE works off its list in as many steps as it is long (rules R134, R138,
R192). -/
theorem run_writeAt {c m d : Level} {w : Line → Bool} {ops : List MicroOp} {s : State}
    (hleft : ops <:+ driverOps Config.mdOrder w c m d) (hat : WriteAt c m d ops s)
    (hc : CalmFor ops.length s) (hack : AckFor ops.length (ackLevel c) s) :
    ∃ t, run ops.length s = .next t ∧ WriteAt c m d [] t ∧
      OnlyAccesses (accessCount ops) s t := by
  induction ops generalizing s with
  | nil => exact ⟨s, run_zero s, hat, rfl, rfl, rfl, rfl⟩
  | cons op rest ih =>
    rw [List.length_cons] at hc hack
    have hp : s.phase = .exec (.instr (.write c m d)) := hat.phase
    obtain ⟨u, hrun, hatu, honly, hturns⟩ :=
      runTodo_writeAt hleft (writeAt_worldMove hat) (hack.clockAck hc)
    have hstep := (step_write_running (hc.takesStep hat.not_ended) hp).trans hrun
    obtain ⟨t, hrun', hatt, honly'⟩ :=
      ih ((List.suffix_cons op rest).trans hleft) hatu (hc.tail hturns) (hack.tail hturns)
    refine ⟨t, (run_succ rest.length hstep).trans hrun', hatt, ?_⟩
    rw [accessCount_cons]
    exact honly.of_worldMove.trans honly'

theorem usesHeld_lineOps_append {ops : List MicroOp} (written : Bool) (line : Line) (l : Level)
    (h : usesHeld ops = false) : usesHeld (lineOps written line l ++ ops) = false := by
  cases written
  · exact h
  · rfl

/-- A WRITE starts with an RD or with FIN, so with no word held (rule R138). -/
theorem usesHeld_driverOps (o : MdOrder) (w : Line → Bool) (c m d : Level) :
    usesHeld (driverOps o w c m d) = false := by
  have hclock : usesHeld (clockOps (w .clock) c ++ [.fin]) = false := by
    cases w .clock <;> rfl
  rw [driverOps, List.append_assoc]
  cases o <;> simp only [mdLines, List.flatMap_cons, List.flatMap_nil, List.append_nil,
    List.append_assoc] <;>
    exact usesHeld_lineOps_append _ _ _ (usesHeld_lineOps_append _ _ _ hclock)

/-- The fetch of a WRITE starts it with its whole list (rules R100, R131). -/
theorem step_fetch_writeAt {c m d : Level} {s : State} {rest : List InUnit} (ht : TakesStep s)
    (hinv : SessionInv s) (hm : LineMirror s) (hp : s.phase = .fetch)
    (hi : s.input = .byte (encode (.write c m d)) :: rest) :
    ∃ t, step s = .next t ∧ WriteAt c m d (expandWrite c m d s) t ∧ t.pos = s.pos + 1 ∧
      t.regLog = s.regLog ∧ t.out = s.out ∧ t.diag = s.diag ∧ t.turns = s.turns.tail := by
  obtain ⟨hk, -⟩ := ended_none_iff.mp ht.1
  obtain ⟨-, hheld⟩ := hinv.fetch_idle hp
  obtain ⟨-, hphase⟩ := hinv
  simp only [PhaseHolds, hp] at hphase
  have hne := expandWrite_ne_nil c m d s
  have hidle : usesHeld (expandWrite c m d s) = false := usesHeld_driverOps _ _ c m d
  have hstep := step_fetch_write ht hp hi
  generalize hu : (((worldMove s).consume (rest ++ (nextTurn s).offer.toList)).setTodo
    (expandWrite c m d s)).setPhase (.exec (.instr (.write c m d))) = u at hstep
  have hfields : opFields u = opFields (worldMove s) := by rw [← hu]; rfl
  have hsame := (sameDriver_worldMove s).trans (sameDriver_of_opFields hfields)
  refine ⟨u, hstep, ?_, by simp [← hu]⟩
  exact {
    phase := by rw [if_neg hne, ← hu]; rfl
    todo := by rw [← hu]; rfl
    first := fun hnil => absurd hnil hne
    mapped := by simp [← hu, hphase.1]
    alive := by simp [← hu, hk]
    held := by simp [← hu, hidle, hheld]
    mirror := (lineMirror_worldMove hm).of_opFields hfields
    served := (served_expandWrite c m d s).congr hsame.lastDriven_eq }

/-- Settles O26: the fetch, then the list, after which every line is served and mirrored by the
register. -/
theorem writeCompletesWhenAcknowledged : Obligations.WriteCompletesWhenAcknowledged := by
  intro c m d s rest n hn he hc hack hinv hm hp hi
  subst hn
  obtain ⟨u, hfetch, hatu, hpos, hlog, hout, hdiag, hturns⟩ :=
    step_fetch_writeAt (hc.takesStep he) hinv hm hp hi
  obtain ⟨t, hrun, hat, honly⟩ :=
    run_writeAt (ops := expandWrite c m d s) List.suffix_rfl hatu (hc.tail hturns) (hack.tail hturns)
  have hlevel (line : Line) (hl : line ≠ .enable) :
      lastDriven t line = some (requested c m d line) := hat.served line hl (by simp)
  have hbit (line : Line) (hl : line ≠ .enable) :
      bitAt t.reg (bitOf line) = requested c m d line := hat.mirror.1 line _ (hlevel line hl)
  exact ⟨t, (run_succ _ hfetch).trans hrun, hat.phase, hat.todo, hat.first rfl,
    hlevel .clock nofun, hlevel .mode nofun, hlevel .data nofun,
    hbit .clock nofun, hbit .mode nofun, hbit .data nofun, honly.pos.trans hpos,
    by rw [honly.count, hlog], honly.out.trans hout, honly.diag.trans hdiag, hat.mapped⟩

end Sys2Proof.Machine
end

section
/-! PROOFS of the statements from spec/42_status_reader.md: READ step by step (rule R151), from its
fetch to its byte (rule R150), and the response stream (rule R152). -/

namespace Sys2Proof.Machine

/-! ### The three steps of READ -/

/-- The dispatch of READ lists SAMPLE and EMIT (rules R100, R151). -/
theorem exec_read_fetch {s : State} (hp : s.phase = .fetch) :
    exec .read s = .next { s with phase := .exec (.instr .read), todo := [.sample, .emit] } := by
  have hdispatch : exec .read s = .next (dispatch _ [.sample, .emit] .fetch s) := perform_fetch hp
  rw [hdispatch, dispatch_eq]
  rfl

/-- A running READ works on its list (rules R103, R138). -/
theorem exec_read_running {s : State} (hp : s.phase = .exec (.instr .read)) :
    exec .read s = runTodo .fetch s :=
  perform_exec hp

/-- SAMPLE reads the register into `held` (rules R52, R151). -/
theorem exec_read_sample {s : State} (hp : s.phase = .exec (.instr .read))
    (ht : s.todo = [.sample, .emit]) (hm : s.mapped = true) :
    exec .read s = .next { s with
      held := some s.reg, todo := [.emit], regLog := s.regLog ++ [.rd s.reg] } := by
  have hop : runOp .sample [.emit] s =
      .ok (((s.pushReg (.rd s.reg)).setHeld (some s.reg)).setTodo [.emit]) := by
    simp [runOp, hm]
  rw [exec_read_running hp, runTodo_cons ht hop, settle_of_todo_cons (State.setTodo_todo _ _)]
  rfl

/-- EMIT sends the symbol of the held word's DATA_OUT and ends READ (rules R150, R151). -/
theorem exec_read_emit {s : State} {v : Word} (hp : s.phase = .exec (.instr .read))
    (ht : s.todo = [.emit]) (hv : s.held = some v) :
    exec .read s = .next { s with
      out := s.out ++ [symbol (bitAt v Config.bDataOut)]
      held := none, todo := [], phase := .fetch } := by
  have hop : runOp .emit [] s =
      .ok (((s.pushOut (symbol (bitAt v Config.bDataOut))).setHeld none).setTodo []) := by
    simp [runOp, hv]
  rw [exec_read_running hp, runTodo_cons ht hop, settle_eq, if_pos (State.setTodo_todo _ _)]
  rfl

/-- Settles O31. -/
theorem readSamplesThenEmits : Obligations.ReadSamplesThenEmits :=
  ⟨fun _ hp => exec_read_fetch hp, fun _ hp ht hm => exec_read_sample hp ht hm,
    fun _ _ hp ht hv => exec_read_emit hp ht hv⟩

/-! ### READ from its fetch to its end -/

/-- The step that fetches a READ consumes its byte and lists SAMPLE and EMIT (rules R100, R151). -/
theorem step_fetch_read {s : State} {rest : List InUnit} (ht : TakesStep s)
    (hp : s.phase = .fetch) (hi : s.input = .byte (encode .read) :: rest) :
    step s = .next { (worldMove s).consume (rest ++ (nextTurn s).offer.toList) with
      phase := .exec (.instr .read), todo := [.sample, .emit] } := by
  generalize hus : rest ++ (nextTurn s).offer.toList = us
  have hin : (worldMove s).input = .byte (encode .read) :: us := by
    rw [worldMove_input, hi, List.cons_append, hus]
  have hdecode : decode (.byte (encode .read)) = .instr .read := decodeByte_encode _
  have hfetch : ((worldMove s).consume us).phase = .fetch := by
    rw [State.consume_phase, worldMove_phase, hp]
  calc step s = exec .read ((worldMove s).consume us) := by
        rw [step_fetch ht hp hin, hdecode]; rfl
    _ = _ := exec_read_fetch hfetch

/-- The machine's step during a READ is READ's own, after the turn (rules R102, R103). -/
theorem step_read_running {s : State} (hstep : TakesStep s)
    (hp : s.phase = .exec (.instr .read)) : step s = exec .read (worldMove s) :=
  stepContinuesRunningInstruction s .read hstep hp

/-- SAMPLE's step reads the word that the step's turn presents (rules R57, R151, R194). -/
theorem step_sample {s : State} (hstep : TakesStep s) (hp : s.phase = .exec (.instr .read))
    (ht : s.todo = [.sample, .emit]) (hm : s.mapped = true) :
    step s = .next { worldMove s with
      held := some (worldMove s).reg
      todo := [.emit]
      regLog := (worldMove s).regLog ++ [.rd (worldMove s).reg] } := by
  rw [step_read_running hstep hp]
  rw [← worldMove_phase] at hp
  rw [← worldMove_todo] at ht
  rw [← worldMove_mapped] at hm
  exact exec_read_sample hp ht hm

/-- EMIT's step sends the symbol of the word read before, whatever its own turn presents (rules R150,
R151). -/
theorem step_emit {s : State} {v : Word} (hstep : TakesStep s)
    (hp : s.phase = .exec (.instr .read)) (ht : s.todo = [.emit]) (hv : s.held = some v) :
    step s = .next { worldMove s with
      out := (worldMove s).out ++ [symbol (bitAt v Config.bDataOut)]
      held := none, todo := [], phase := .fetch } := by
  rw [step_read_running hstep hp]
  rw [← worldMove_phase] at hp
  rw [← worldMove_todo] at ht
  rw [← worldMove_held] at hv
  exact exec_read_emit hp ht hv

/-- DATA_OUT of the word a turn presents is the environment's (rules R26, R57). -/
theorem worldMove_dataOut (s : State) :
    bitAt (worldMove s).reg Config.bDataOut = bitAt (nextTurn s).env Config.bDataOut := by
  simp

/-- Settles O32: the fetch, SAMPLE in the second turn and EMIT, one settled turn each. -/
theorem readReportsPresentDataOut : Obligations.ReadReportsPresentDataOut := by
  intro s rest t₁ t₂ t₃ ts he hturns hk₁ hk₂ hk₃ hp hm hi
  obtain ⟨hkilled, -⟩ := ended_none_iff.mp he
  have hcalm : CalmFor 3 s := by simp [CalmFor, hturns, hk₁, hk₂, hk₃]
  have hfetch := step_fetch_read (hcalm.takesStep he) hp hi
  generalize hu : ({ (worldMove s).consume (rest ++ (nextTurn s).offer.toList) with
    phase := .exec (.instr .read), todo := [.sample, .emit] } : State) = u at hfetch
  have hcalmu : CalmFor 2 u := hcalm.tail (by simp [← hu])
  have hendu : ended u = none := ended_none_iff.mpr (by simp [← hu, hkilled])
  have hnext : nextTurn u = t₂ := by simp [← hu, nextTurn, hturns]
  have hsample := step_sample (hcalmu.takesStep hendu) (by rw [← hu]) (by rw [← hu])
    (by simp [← hu, hm])
  generalize hw : ({ worldMove u with
    held := some (worldMove u).reg
    todo := [.emit]
    regLog := (worldMove u).regLog ++ [.rd (worldMove u).reg] } : State) = w at hsample
  have hcalmw : CalmFor 1 w := hcalmu.tail (by simp [← hw])
  have hendw : ended w = none := ended_none_iff.mpr (by simp [← hw, ← hu, hkilled])
  have hemit := step_emit (v := (worldMove u).reg) (hcalmw.takesStep hendw)
    (by simp [← hw, ← hu]) (by rw [← hw]) (by rw [← hw])
  have hdata := worldMove_dataOut u
  rw [hnext] at hdata
  rw [hdata] at hemit
  refine ⟨_, (worldMove u).reg, (run_succ 2 hfetch).trans ((run_succ 1 hsample).trans
    (run_succ 0 hemit)), rfl, rfl, rfl, ?_, ?_, hdata, ?_⟩
  · simp [← hw, ← hu]
  · simp [← hw, ← hu]
  · simp +contextual [← hw, ← hu, symbol, SameDriver]

/-! ### The frame of READ -/

/-- Inside a READ either the sample is still to come, or a word is held for EMIT (rules R36, R151). -/
theorem SessionInv.read_left {s : State} (h : SessionInv s)
    (hp : s.phase = .exec (.instr .read)) :
    s.todo = [.sample, .emit] ∨ (s.todo = [.emit] ∧ ∃ v, s.held = some v) := by
  obtain ⟨hne, hleft⟩ := h.exec_left hp
  have htodo : s.todo = [.sample, .emit] ∨ s.todo = [.emit] := by
    simpa [LeftOf, List.suffix_cons_iff, hne] using hleft
  rcases htodo with htodo | htodo
  · exact .inl htodo
  · have hheld : s.held.isSome = true := by rw [h.1, htodo]; rfl
    exact .inr ⟨htodo, Option.isSome_iff_exists.mp hheld⟩

/-- Settles O33: each of READ's three steps writes only the phase, the list, the held word and the
two histories of register events and bytes. -/
theorem readFrame : Obligations.ReadFrame := by
  intro s t hinv h
  rcases perform_cases h with ⟨hp, -⟩ | ⟨hp, -⟩
  · rw [exec_read_fetch hp] at h
    cases h
    simp [SameDriver, SameSession, SameWorld]
  · rcases hinv.read_left hp with htodo | ⟨htodo, v, hv⟩
    · rw [exec_read_sample hp htodo (hinv.mapped (.inr (.inr ⟨_, hp⟩)))] at h
      cases h
      simp [SameDriver, SameSession, SameWorld]
    · rw [exec_read_emit hp htodo hv] at h
      cases h
      simp [SameDriver, SameSession, SameWorld]

/-! ### Only READ writes the response stream -/

/-- Outside EXEC what is pending, if anything, is left of a TAP enable or disable (rules R160,
R164). -/
theorem SessionInv.pendingOps_outside_exec {s : State} (h : SessionInv s)
    (hp : ∀ cmd, s.phase ≠ .exec cmd) : ∃ on, pendingOps s <:+ tapEnableOps on := by
  obtain ⟨-, hphase⟩ := h
  have idle (hns : s.phase ≠ .stop) (htodo : s.todo = []) :
      ∃ on, pendingOps s <:+ tapEnableOps on := by
    rw [pendingOps_eq_todo (.inl hns), htodo]
    exact ⟨true, List.nil_suffix⟩
  cases hph : s.phase with
  | exec cmd => exact absurd hph (hp cmd)
  | map =>
    simp only [PhaseHolds, hph] at hphase
    obtain ⟨-, htodo, -⟩ := hphase
    exact idle (by simp [hph]) htodo
  | start =>
    simp only [PhaseHolds, hph] at hphase
    obtain ⟨-, -, -, -, -, -, -, hsuffix⟩ := hphase
    rw [pendingOps_eq_todo (.inl (by simp [hph]))]
    exact ⟨true, hsuffix⟩
  | fetch =>
    simp only [PhaseHolds, hph] at hphase
    obtain ⟨-, -, -, -, htodo⟩ := hphase
    exact idle (by simp [hph]) htodo
  | stop =>
    simp only [PhaseHolds, hph] at hphase
    obtain ⟨-, -, -, -, htodo | htodo⟩ := hphase
    · exact ⟨false, (pendingOps_stop hph htodo).symm ▸ List.suffix_rfl⟩
    · rw [pendingOps_eq_todo (.inr (by simp [htodo])), htodo]
      exact ⟨false, List.suffix_cons _ _⟩
  | release st =>
    simp only [PhaseHolds, hph] at hphase
    exact idle (by simp [hph]) hphase.1
  | exited st =>
    simp only [PhaseHolds, hph] at hphase
    exact idle (by simp [hph]) hphase.1

/-- Only READ lists EMIT (rules R138, R151). -/
theorem LeftOf.eq_read_of_emit {cmd : Cmd} {rest : List MicroOp}
    (h : LeftOf cmd (.emit :: rest)) : cmd = .instr .read := by
  cases cmd with
  | eos => exact h.elim
  | invalid b =>
    have hmem : MicroOp.emit ∈ [.diagu b] := h.1.subset (List.mem_cons_self ..)
    simp at hmem
  | instr i =>
    cases i with
    | write c m d =>
      obtain ⟨w, hsuffix⟩ := h
      rcases driverOps_suffix_cases hsuffix with ⟨_, _, hop, _⟩ | ⟨_, hop, _⟩ | ⟨hop, _⟩ |
        ⟨hop, _⟩ <;> cases hop
    | read => rfl
    | quit => exact h.elim
    | blinkUpper => exact h.elim
    | blinkLower => exact h.elim
    | resetR => exact h.elim
    | resetR1 => exact h.elim
    | resetR2 => exact h.elim
    | resetR3 => exact h.elim

/-- When EMIT is the next operation, READ is running and EMIT is all that is left of it. -/
theorem SessionInv.read_of_emit {s : State} {rest : List MicroOp} (h : SessionInv s)
    (hpend : pendingOps s = .emit :: rest) :
    s.phase = .exec (.instr .read) ∧ s.todo = [.emit] := by
  by_cases hexec : ∃ cmd, s.phase = .exec cmd
  · obtain ⟨cmd, hp⟩ := hexec
    rw [pendingOps_eq_todo (.inl (by simp [hp]))] at hpend
    obtain ⟨-, hleft⟩ := h.exec_left hp
    rw [hpend] at hleft
    obtain rfl := hleft.eq_read_of_emit
    rcases h.read_left hp with htodo | ⟨htodo, -⟩
    · simp [hpend] at htodo
    · exact ⟨hp, htodo⟩
  · obtain ⟨on, hsuffix⟩ := h.pendingOps_outside_exec (not_exists.mp hexec)
    have hmem : MicroOp.emit ∈ tapEnableOps on := hsuffix.subset (by simp [hpend])
    simp [tapEnableOps] at hmem

/-- EMIT appends the one symbol of the held word's DATA_OUT (rule R150). -/
theorem runOp_emit_out {rest : List MicroOp} {s t : State} (h : runOp .emit rest s = .ok t) :
    ∃ v, s.held = some v ∧ t.out = s.out ++ [symbol (bitAt v Config.bDataOut)] := by
  have hcases := runOp_cases h
  simp only [reduceCtorEq, false_and, exists_false, false_or, or_false, true_and] at hcases
  obtain ⟨v, hv, rfl⟩ := hcases
  exact ⟨v, hv, rfl⟩

/-- Settles O34: only EMIT writes the response stream, and EMIT is next only in a READ. -/
theorem onlyReadWritesOutput : Obligations.OnlyReadWritesOutput := by
  intro s t hinv h
  rcases step_runsOp h with hf | ⟨op, rest, hpend, s', after, hop, rfl⟩
  · simp only [opFields, Prod.mk.injEq] at hf
    obtain ⟨-, -, -, hout, -⟩ := hf
    rw [worldMove_out] at hout
    exact .inl hout
  rw [settle_eq, State.setPhase_out]
  by_cases hemit : op = .emit
  · subst hemit
    rw [pendingOps_worldMove] at hpend
    obtain ⟨hp, htodo⟩ := hinv.read_of_emit hpend
    obtain ⟨v, hv, hout⟩ := runOp_emit_out hop
    rw [State.setTodo_held, worldMove_held] at hv
    rw [State.setTodo_out, worldMove_out] at hout
    exact .inr ⟨hp, htodo, v, hv, hout⟩
  · have hout := runOp_out_eq hemit hop
    rw [State.setTodo_out, worldMove_out] at hout
    exact .inl hout

end Sys2Proof.Machine
end

section
/-! PROOFS of the statements from spec/43_tap_enable.md, part 1: the session invariant (rules R35 to
R38, R164 to R168) is kept by every step, phase by phase, and the machine answers until the end. -/

namespace Sys2Proof.Machine

/-! ### The invariant by phase -/

/-- Between acquire and release: the mapping is held and no lifecycle operation is pending (rule
R38). -/
def HoldsMapping (s : State) : Prop := s.mapped = true ∧ s.life = [] ∧ s.mapLog = [.acquired]

theorem phaseHolds_start_iff {s : State} (hp : s.phase = .start) :
    PhaseHolds s ↔ HoldsMapping s ∧ s.pos = 0 ∧ s.out = [] ∧ s.diag = [] ∧ s.todo ≠ [] ∧
      s.todo <:+ tapEnableOps true := by
  simp only [PhaseHolds, hp, HoldsMapping, and_assoc]

theorem phaseHolds_fetch_iff {s : State} (hp : s.phase = .fetch) :
    PhaseHolds s ↔ HoldsMapping s ∧ OnlyUnknown s.diag ∧ s.todo = [] := by
  simp only [PhaseHolds, hp, HoldsMapping, and_assoc]

theorem phaseHolds_exec_iff {s : State} {cmd : Cmd} (hp : s.phase = .exec cmd) :
    PhaseHolds s ↔
      HoldsMapping s ∧ OnlyUnknown s.diag ∧ s.todo ≠ [] ∧ LeftOf cmd s.todo := by
  simp only [PhaseHolds, hp, HoldsMapping, and_assoc]

theorem phaseHolds_stop_iff {s : State} (hp : s.phase = .stop) :
    PhaseHolds s ↔ HoldsMapping s ∧ OnlyUnknown s.diag ∧
      (s.todo = [] ∨ s.todo = [.wr .enable (enableLevel false)]) := by
  simp only [PhaseHolds, hp, HoldsMapping, and_assoc]

/-- With nothing to do the invariant asks that no word is held. -/
theorem sessionInv_of_idle {s : State} (ht : s.todo = []) (hh : s.held = none)
    (hphase : PhaseHolds s) : SessionInv s :=
  ⟨by rw [ht, hh]; rfl, hphase⟩

theorem SessionInv.held_of_idle {s : State} (h : SessionInv s) (ht : s.todo = []) :
    s.held = none := by
  have hheld := h.1
  rw [ht] at hheld
  exact Option.not_isSome_iff_eq_none.mp (by simp [hheld, usesHeld])

/-- A termination leaves the block's fields alone (rule R180). -/
theorem sessionInv_setKilled {s : State} (h : SessionInv s) : SessionInv s.setKilled := by
  unfold SessionInv PhaseHolds at h ⊢
  exact h

/-! ### MAP and RELEASE -/

/-- `acquire()` from an idle MAP: START with the TAP enable to run, or the report of MAP_FAIL pending
(rules R164, R166). -/
theorem sessionInv_acquire {ok : Bool} {s : State} (h : SessionInv s) (hp : s.phase = .map)
    (hl : s.life = []) : SessionInv (acquire ok s) := by
  have hphase := h.2
  simp only [PhaseHolds, hp] at hphase
  obtain ⟨hmapped, htodo, hpos, hreg, hout, hdiag, ⟨-, hlog⟩ | ⟨hlife, -⟩⟩ := hphase
  · have hheld := h.held_of_idle htodo
    cases ok with
    | true =>
      refine ⟨by simp [acquire, tapEnableOps, usesHeld, hheld], ?_⟩
      rw [phaseHolds_start_iff rfl]
      simp [acquire, HoldsMapping, hl, hlog, hpos, hout, hdiag, tapEnableOps]
    | false =>
      refine sessionInv_of_idle htodo hheld ?_
      simp [PhaseHolds, acquire, hp, hmapped, htodo, hpos, hreg, hout, hdiag, hlog]
  · simp [hl] at hlife

/-- What may be pending first: in MAP the report of MAP_FAIL, in RELEASE(st) the exit with `st`, or
the report of UNMAP_WITHOUT_MAP on the failure path (rules R164 to R167). -/
theorem SessionInv.life_cases {s : State} {op : LifeOp} {rest : List LifeOp} (h : SessionInv s)
    (hl : s.life = op :: rest) (hp : s.phase = .map ∨ ∃ st, s.phase = .release st) :
    (s.phase = .map ∧ op = .reportMapFail ∧ rest = []) ∨
    (∃ st, s.phase = .release st ∧ op = .exit st ∧ rest = []) ∨
    (s.phase = .release .failure ∧ op = .reportUnmap ∧ rest = [.exit .failure]) := by
  obtain ⟨-, hphase⟩ := h
  rcases hp with hp | ⟨st, hp⟩ <;> simp only [PhaseHolds, hp] at hphase
  · obtain ⟨-, -, -, -, -, -, ⟨hlife, -⟩ | ⟨hlife, -⟩⟩ := hphase
    · simp [hl] at hlife
    · rw [hl, List.cons.injEq] at hlife
      exact .inl ⟨hp, hlife⟩
  · obtain ⟨-, ⟨hlife, -⟩ | ⟨-, -, ⟨hlife, -⟩ | ⟨rfl, hlife, -⟩⟩⟩ := hphase
    · simp [hl] at hlife
    · rw [hl, List.cons.injEq] at hlife
      exact .inr (.inl ⟨st, hp, hlife⟩)
    · rw [hl, List.cons.injEq] at hlife
      exact .inr (.inr ⟨hp, hlife⟩)

/-- The pending lifecycle operations run in their order (rules R164 to R167). -/
theorem sessionInv_runLifeOp {s : State} {op : LifeOp} {rest : List LifeOp} (h : SessionInv s)
    (hl : s.life = op :: rest) (hp : s.phase = .map ∨ ∃ st, s.phase = .release st) :
    SessionInv (runLifeOp op rest s) := by
  have hphase := h.2
  rcases h.life_cases hl hp with ⟨hp, rfl, rfl⟩ | ⟨st, hp, rfl, rfl⟩ | ⟨hp, rfl, rfl⟩ <;>
    simp only [PhaseHolds, hp, hl, reduceCtorEq, false_and, false_or, List.cons.injEq,
      and_false, or_false, true_and] at hphase
  · obtain ⟨hmapped, htodo, hpos, hreg, hout, hdiag, hlog⟩ := hphase
    refine sessionInv_of_idle htodo (h.held_of_idle htodo) ?_
    simp [PhaseHolds, runLifeOp, raiseEvent, ClosedHistories, openedBy, hmapped, htodo, hpos, hreg,
      hout, hdiag, hlog]
  · obtain ⟨htodo, hlog, hmapped, hclosed⟩ := hphase
    exact sessionInv_of_idle htodo (h.held_of_idle htodo) ⟨htodo, rfl, hmapped, hlog, hclosed⟩
  · obtain ⟨htodo, hlog, hmapped, hclosed⟩ := hphase
    refine sessionInv_of_idle htodo (h.held_of_idle htodo) ?_
    simp_all [PhaseHolds, runLifeOp, raiseEvent, ClosedHistories]

/-- The exit may come without the report of UNMAP_WITHOUT_MAP (rule R167). -/
theorem ClosedHistories.mono {st : Status} {s : State} (h : ClosedHistories st false s) :
    ClosedHistories st true s := by
  cases st with
  | success => exact h
  | failure => simp_all [ClosedHistories]

/-- `release()`: the exit is pending, on the failure path possibly after a report (rules R164 to
R167). -/
theorem sessionInv_release {report : Bool} {st : Status} {s : State} (h : SessionInv s)
    (hp : s.phase = .release st) (hl : s.life = []) : SessionInv (release report st s) := by
  have hphase := h.2
  simp only [PhaseHolds, hp] at hphase
  obtain ⟨htodo, ⟨-, hlog, -, hclosed⟩ | ⟨-, -, ⟨hlife, -⟩ | ⟨-, hlife, -⟩⟩⟩ := hphase
  · have hlog' : (release report st s).mapLog = [openedBy st, .released] := by
      simp [release, hlog]
    have hpending : (release report st s).life = [.exit st] ∨
        st = .failure ∧ (release report st s).life = [.reportUnmap, .exit st] := by
      cases st <;> cases report <;> simp [release, afterRelease]
    refine sessionInv_of_idle htodo (h.held_of_idle htodo) ?_
    have hp' : (release report st s).phase = .release st := hp
    simp only [PhaseHolds, hp']
    refine ⟨htodo, .inr ⟨hlog', rfl, ?_⟩⟩
    rcases hpending with hlife | ⟨hst, hlife⟩
    · exact .inl ⟨hlife, hclosed.mono⟩
    · exact .inr ⟨hst, hlife, hclosed⟩
  · simp [hl] at hlife
  · simp [hl] at hlife

/-! ### START and STOP -/

/-- In START the enable is still to run, or its write is, with the word read before held (rules R160,
R161). -/
theorem SessionInv.start_left {s : State} (h : SessionInv s) (hp : s.phase = .start) :
    s.todo = tapEnableOps true ∨
      (s.todo = [.wr .enable (enableLevel true)] ∧ ∃ v, s.held = some v) := by
  obtain ⟨hheld, hphase⟩ := h
  obtain ⟨-, -, -, -, hne, hsuffix⟩ := (phaseHolds_start_iff hp).mp hphase
  simp only [tapEnableOps, List.suffix_cons_iff, List.suffix_nil, hne, or_false] at hsuffix
  refine hsuffix.imp_right fun htodo => ⟨htodo, ?_⟩
  exact Option.isSome_iff_exists.mp (by rw [hheld, htodo]; rfl)

/-- In STOP the disable is still to load, or its write is left, with the word read before held (rules
R161, R164). -/
theorem SessionInv.stop_left {s : State} (h : SessionInv s) (hp : s.phase = .stop) :
    s.todo = [] ∨
      (s.todo = [.wr .enable (enableLevel false)] ∧ ∃ v, s.held = some v) := by
  obtain ⟨hheld, hphase⟩ := h
  obtain ⟨-, -, htodo⟩ := (phaseHolds_stop_iff hp).mp hphase
  refine htodo.imp_right fun htodo => ⟨htodo, ?_⟩
  exact Option.isSome_iff_exists.mp (by rw [hheld, htodo]; rfl)

/-- The read half of `TapEnable(on)` (rules R160, R161). -/
theorem runTodo_tapEnable_rd {after : Phase} {on : Level} {s : State}
    (ht : s.todo = tapEnableOps on) (hm : s.mapped = true) :
    runTodo after s = .next (((s.pushReg (.rd s.reg)).setHeld (some s.reg)).setTodo
      [.wr .enable (enableLevel on)]) :=
  runTodo_rd ht hm

/-- The write half of `TapEnable(on)` ends its phase (rules R160, R161, R164). -/
theorem runTodo_tapEnable_wr {after : Phase} {l : Level} {v : Word} {s : State}
    (ht : s.todo = [.wr .enable l]) (hm : s.mapped = true) (hh : s.held = some v) :
    runTodo after s = .next (((((s.setEnvReg (writeEffect s.reg
      (insertBit Config.bEnable l v))).pushReg (.wr (insertBit Config.bEnable l v))).setHeld
      none).setTodo []).setPhase after) :=
  runTodo_wr ht hm hh

/-- A step of START reads, or writes and moves on to FETCH (rule R164). -/
theorem sessionInv_start {s t : State} (h : SessionInv s) (hp : s.phase = .start)
    (hrun : runTodo .fetch s = .next t) : SessionInv t := by
  obtain ⟨hmap, hpos, hout, hdiag, -⟩ := (phaseHolds_start_iff hp).mp h.2
  rcases h.start_left hp with htodo | ⟨htodo, v, hheld⟩
  · rw [runTodo_tapEnable_rd htodo hmap.1, Host.Outcome.next.injEq] at hrun
    subst hrun
    refine ⟨rfl, (phaseHolds_start_iff ?_).mpr
      ⟨hmap, hpos, hout, hdiag, List.cons_ne_nil _ _, List.suffix_cons _ _⟩⟩
    exact hp
  · rw [runTodo_tapEnable_wr htodo hmap.1 hheld, Host.Outcome.next.injEq] at hrun
    subst hrun
    refine sessionInv_of_idle rfl rfl ((phaseHolds_fetch_iff rfl).mpr ⟨hmap, ?_, rfl⟩)
    simp [OnlyUnknown, hdiag]

/-- STOP's first step loads the disable and reads (rules R161, R164). -/
theorem sessionInv_stop_load {s t : State} (h : SessionInv s) (hp : s.phase = .stop)
    (hrun : runTodo (.release .success) (s.setTodo (tapEnableOps false)) = .next t) :
    SessionInv t := by
  obtain ⟨hmap, hdiag, -⟩ := (phaseHolds_stop_iff hp).mp h.2
  have hrd := runTodo_tapEnable_rd (after := .release .success) (on := false)
    (s := s.setTodo (tapEnableOps false)) rfl hmap.1
  rw [hrd, Host.Outcome.next.injEq] at hrun
  subst hrun
  refine ⟨rfl, (phaseHolds_stop_iff ?_).mpr ⟨hmap, hdiag, .inr rfl⟩⟩
  exact hp

/-- STOP's second step writes and moves on to RELEASE(SUCCESS) (rule R164). -/
theorem sessionInv_stop_write {s t : State} (h : SessionInv s) (hp : s.phase = .stop)
    (hne : s.todo ≠ []) (hrun : runTodo (.release .success) s = .next t) : SessionInv t := by
  obtain ⟨hmap, hdiag, -⟩ := (phaseHolds_stop_iff hp).mp h.2
  rcases h.stop_left hp with hnil | ⟨htodo, v, hheld⟩
  · exact absurd hnil hne
  · obtain ⟨hmapped, hlife, hlog⟩ := hmap
    rw [runTodo_tapEnable_wr htodo hmapped hheld, Host.Outcome.next.injEq] at hrun
    subst hrun
    exact sessionInv_of_idle rfl rfl ⟨rfl, .inl ⟨hlife, hlog, hmapped, hdiag⟩⟩

/-! ### FETCH and EXEC -/

/-- The operation takes a register word into `held` (rule R138). -/
def takesWord : MicroOp → Bool
  | .rd _ _ => true
  | .sample => true
  | .wr _ _ => false
  | .poll _ => false
  | .fin => false
  | .emit => false
  | .diagu _ => false

/-- In a list in which WR and EMIT stand exactly after the operations that take a word, every
operation keeps a held word exactly where the next one uses it (rule R138). -/
theorem runOp_held {op : MicroOp} {rest : List MicroOp} {s t : State}
    (hnext : usesHeld rest = takesWord op) (htodo : s.todo = op :: rest)
    (hheld : s.held.isSome = usesHeld s.todo) (h : runOp op rest s = .ok t) :
    t.held.isSome = usesHeld t.todo := by
  have dropped {u : State} (hu : u.held = none) (hr : u.todo = rest)
      (hop : takesWord op = false) : u.held.isSome = usesHeld u.todo := by
    rw [hu, hr, hnext, hop]; rfl
  have kept (hidle : usesHeld (op :: rest) = false) : s.held = none := by
    rw [htodo, hidle] at hheld
    exact Option.not_isSome_iff_eq_none.mp (by simp [hheld])
  rcases runOp_cases h with ⟨_, _, rfl, _, rfl⟩ | ⟨_, _, _, rfl, _⟩ | ⟨_, rfl, _, _, rfl⟩ |
    ⟨_, rfl, _, _, rfl⟩ | ⟨rfl, rfl⟩ | ⟨rfl, _, rfl⟩ | ⟨_, rfl, _, rfl⟩ | ⟨_, rfl, rfl⟩
  · exact hnext.symm
  · obtain ⟨_, -, -, -, hnone, -⟩ := runOp_wr h
    exact dropped hnone ((runOp_todo h).resolve_right nofun) rfl
  · exact dropped (kept rfl) rfl rfl
  · exact hheld
  · exact dropped (kept rfl) rfl rfl
  · exact hnext.symm
  · exact dropped rfl rfl rfl
  · exact dropped (kept rfl) rfl rfl

/-- Of three kinds of commands something can be left: WRITE, READ and an invalid byte (rule R138). -/
theorem LeftOf.cases {cmd : Cmd} {todo : List MicroOp} (h : LeftOf cmd todo) :
    (∃ c m d w, cmd = .instr (.write c m d) ∧ todo <:+ driverOps Config.mdOrder w c m d) ∨
    (cmd = .instr .read ∧ todo <:+ [.sample, .emit]) ∨
    ∃ b, cmd = .invalid b ∧ todo <:+ [.diagu b] ∧ isInvalidByte b = true := by
  cases cmd with
  | eos => exact h.elim
  | invalid b => exact .inr (.inr ⟨b, rfl, h⟩)
  | instr i =>
    cases i with
    | write c m d =>
      obtain ⟨w, hleft⟩ := h
      exact .inl ⟨c, m, d, w, rfl, hleft⟩
    | read => exact .inr (.inl ⟨rfl, h⟩)
    | _ => exact h.elim

/-- What is left of a command after its head is left of it too. -/
theorem LeftOf.tail {cmd : Cmd} {op : MicroOp} {rest : List MicroOp}
    (h : LeftOf cmd (op :: rest)) : LeftOf cmd rest := by
  have htail : rest <:+ op :: rest := List.suffix_cons op rest
  rcases h.cases with ⟨c, m, d, w, rfl, hleft⟩ | ⟨rfl, hleft⟩ | ⟨b, rfl, hleft, hb⟩
  · exact ⟨w, htail.trans hleft⟩
  · exact htail.trans hleft
  · exact ⟨htail.trans hleft, hb⟩

/-- In every command's list WR and EMIT stand exactly after the operations that take a word, and only
an invalid byte is reported (rules R118, R138). -/
theorem LeftOf.head {cmd : Cmd} {op : MicroOp} {rest : List MicroOp}
    (h : LeftOf cmd (op :: rest)) :
    usesHeld rest = takesWord op ∧ ∀ b, op = .diagu b → isInvalidByte b = true := by
  rcases h.cases with ⟨c, m, d, w, rfl, hleft⟩ | ⟨rfl, hleft⟩ | ⟨b, rfl, hleft, hb⟩
  · rcases driverOps_suffix_cases hleft with ⟨_, _, rfl, _, rfl⟩ | ⟨_, rfl, _, _, hidle, _⟩ |
      ⟨rfl, rfl⟩ | ⟨rfl, rfl⟩
    · exact ⟨rfl, nofun⟩
    · exact ⟨hidle, nofun⟩
    · exact ⟨rfl, nofun⟩
    · exact ⟨rfl, nofun⟩
  · simp only [List.suffix_cons_iff, List.suffix_nil, reduceCtorEq, or_false,
      List.cons.injEq] at hleft
    rcases hleft with ⟨rfl, rfl⟩ | ⟨rfl, rfl⟩
    · exact ⟨rfl, nofun⟩
    · exact ⟨rfl, nofun⟩
  · simp only [List.suffix_cons_iff, List.suffix_nil, reduceCtorEq, or_false,
      List.cons.injEq] at hleft
    obtain ⟨rfl, rfl⟩ := hleft
    exact ⟨rfl, fun b' hop => by cases hop; exact hb⟩

/-- An operation of a command reports at most an invalid byte (rule R118). -/
theorem runOp_onlyUnknown {op : MicroOp} {rest : List MicroOp} {s t : State}
    (hb : ∀ b, op = .diagu b → isInvalidByte b = true) (hdiag : OnlyUnknown s.diag)
    (h : runOp op rest s = .ok t) : OnlyUnknown t.diag := by
  rcases runOp_diag h with ⟨-, hsame⟩ | ⟨b, hop, hadd⟩
  · exact hsame ▸ hdiag
  · intro e he
    rw [hadd, List.mem_append, List.mem_singleton] at he
    rcases he with he | rfl
    · exact hdiag e he
    · exact ⟨b, rfl, hb b hop⟩

/-- A step over a command's list keeps it running with what is left, or ends it with nothing left
(rule R138). -/
theorem sessionInv_exec {cmd : Cmd} {s t : State} (h : SessionInv s) (hp : s.phase = .exec cmd)
    (hrun : runTodo .fetch s = .next t) : SessionInv t := by
  obtain ⟨hheld, hphase⟩ := h
  obtain ⟨⟨hmapped, hlife, hlog⟩, hdiag, hne, hleft⟩ := (phaseHolds_exec_iff hp).mp hphase
  rcases runTodo_cases hrun with ⟨hnil, _⟩ | ⟨op, rest, s', htodo, hop, rfl⟩
  · exact absurd hnil hne
  have hleft' : LeftOf cmd s'.todo := by
    rcases runOp_todo hop with hrest | ⟨-, hsame⟩
    · rw [hrest]
      exact (htodo ▸ hleft).tail
    · rwa [hsame]
  rw [htodo] at hleft
  obtain ⟨hnext, hb⟩ := hleft.head
  have hheld' := runOp_held hnext htodo hheld hop
  have hdiag' := runOp_onlyUnknown hb hdiag hop
  obtain ⟨hphase', ⟨hmapped', -, hlife', hlog'⟩, -⟩ := runOp_frame hop
  have hmap : HoldsMapping s' :=
    ⟨hmapped'.trans hmapped, hlife'.trans hlife, hlog'.trans hlog⟩
  by_cases hdone : s'.todo = []
  · rw [settle_eq, if_pos hdone]
    exact ⟨hheld', (phaseHolds_fetch_iff rfl).mpr ⟨hmap, hdiag', hdone⟩⟩
  · rw [settle_eq, if_neg hdone]
    exact ⟨hheld', (phaseHolds_exec_iff (hphase'.trans hp)).mpr ⟨hmap, hdiag', hdone, hleft'⟩⟩

/-- The dispatch of a well-formed command: a list with no word to use first, or none at all, and then
FETCH or STOP is next (rules R100, R138, R164). -/
theorem execCmd_dispatches {cmd : Cmd} {s t : State} (hwf : cmd.wf = true)
    (hp : s.phase = .fetch) (h : execCmd cmd s = .next t) :
    (∃ after, t = (s.setTodo []).setPhase after ∧ (after = .fetch ∨ after = .stop)) ∨
    ∃ ops, t = (s.setTodo ops).setPhase (.exec cmd) ∧ ops ≠ [] ∧ LeftOf cmd ops ∧
      usesHeld ops = false := by
  obtain ⟨ops, after, heq, hcmd⟩ := execCmd_eq cmd s
  rw [heq, perform_fetch hp, Host.Outcome.next.injEq, dispatch_eq] at h
  subst h
  rcases hcmd with ⟨c, m, d, rfl, rfl, rfl⟩ | ⟨rfl, rfl, rfl⟩ | ⟨b, rfl, rfl, rfl⟩ |
    ⟨-, rfl, rfl⟩ | ⟨-, rfl, rfl⟩
  · have hne := expandWrite_ne_nil c m d s
    exact .inr ⟨_, by rw [if_neg hne], hne, ⟨_, List.suffix_rfl⟩, usesHeld_driverOps _ _ c m d⟩
  · exact .inr ⟨_, rfl, List.cons_ne_nil _ _, List.suffix_rfl, rfl⟩
  · exact .inr ⟨_, rfl, List.cons_ne_nil _ _, ⟨List.suffix_rfl, hwf⟩, rfl⟩
  · exact .inl ⟨.stop, rfl, .inr rfl⟩
  · exact .inl ⟨.fetch, rfl, .inl rfl⟩

/-- The fetch of a unit enters EXEC with the command's list, or moves on with nothing to do. -/
theorem sessionInv_dispatch {cmd : Cmd} {s t : State} (h : SessionInv s) (hwf : cmd.wf = true)
    (hp : s.phase = .fetch) (hexec : execCmd cmd s = .next t) : SessionInv t := by
  obtain ⟨-, hheld⟩ := h.fetch_idle hp
  obtain ⟨hmap, hdiag, -⟩ := (phaseHolds_fetch_iff hp).mp h.2
  rcases execCmd_dispatches hwf hp hexec with ⟨_, rfl, rfl | rfl⟩ |
    ⟨ops, rfl, hne, hleft, hidle⟩
  · exact sessionInv_of_idle rfl hheld ((phaseHolds_fetch_iff rfl).mpr ⟨hmap, hdiag, rfl⟩)
  · exact sessionInv_of_idle rfl hheld ((phaseHolds_stop_iff rfl).mpr ⟨hmap, hdiag, .inl rfl⟩)
  · refine ⟨?_, (phaseHolds_exec_iff rfl).mpr ⟨hmap, hdiag, hne, hleft⟩⟩
    rw [State.setPhase_held, State.setTodo_held, State.setPhase_todo, State.setTodo_todo, hheld,
      hidle]
    rfl

theorem sessionInv_consume {s : State} {rest : List InUnit} (h : SessionInv s)
    (hp : s.phase = .fetch) : SessionInv (s.consume rest) := by
  obtain ⟨htodo, hheld⟩ := h.fetch_idle hp
  refine sessionInv_of_idle htodo hheld
    ((phaseHolds_fetch_iff ?_).mpr ((phaseHolds_fetch_iff hp).mp h.2))
  exact hp

/-! ### One step -/

/-- The block's own step, phase by phase (rule R164). -/
theorem sessionInv_blockStep {tn : Turn} {s t : State} (hinv : SessionInv s)
    (h : blockStep tn s = .next t) : SessionInv t := by
  rcases blockStep_cases h with ⟨hp, hl, rfl⟩ | ⟨op, rest, hp, hl, rfl⟩ | ⟨hp, hrun⟩ |
    ⟨_, _, rfl⟩ | ⟨u, rest, hp, _, hexec⟩ | ⟨cmd, hp, hexec⟩ | ⟨hp, _, hrun⟩ | ⟨hp, hne, hrun⟩ |
    ⟨st, hp, hl, rfl⟩
  · exact sessionInv_acquire hinv hp hl
  · exact sessionInv_runLifeOp hinv hl hp
  · exact sessionInv_start hinv hp hrun
  · exact hinv
  · exact sessionInv_dispatch (sessionInv_consume hinv hp) (decode_wf u) hp hexec
  · rw [execCmd_running hp (hinv.exec_left hp).2] at hexec
    exact sessionInv_exec hinv hp hexec
  · exact sessionInv_stop_load hinv hp hrun
  · exact sessionInv_stop_write hinv hp hne hrun
  · exact sessionInv_release hinv hp hl

/-- Settles O53: the turn and a termination leave the block's fields alone, and the block's own step
keeps the invariant in each phase. -/
theorem sessionInvariantIsKept : Obligations.SessionInvariantIsKept := by
  intro s t hinv h
  have hmove := sessionInv_worldMove hinv
  rcases step_cases h with ⟨_, _, rfl⟩ | ⟨_, hblock⟩
  · exact sessionInv_setKilled hmove
  · exact sessionInv_blockStep hmove hblock

/-- Settles O54: in every phase but EXITED the block's own step answers. -/
theorem stepsUntilTheSessionEnds : Obligations.StepsUntilTheSessionEnds :=
  fun _ hinv he => step_answers hinv he

/-- Settles O45: `step` asks first whether the session is over. -/
theorem exitedTakesNoStep : Obligations.ExitedTakesNoStep := by
  intro s st hk hp
  have hended : ended s = some (.sessionOver st) := by simp [ended, hk, hp]
  simp [step, machineStep, hended]

end Sys2Proof.Machine
end

section
/-! PROOFS of the statements from spec/43_tap_enable.md, part 2: the phases of one step (rule R164),
and the ENABLE bit while commands run (rules R160, R163). -/

namespace Sys2Proof.Machine

/-! ### The moves of the phase -/

/-- The phase stays, or moves along a line of rule R164. -/
def ListedMove (p q : Phase) : Prop :=
  q = p ∨
  (p = .map ∧ (q = .start ∨ q = .release .failure)) ∨
  (p = .start ∧ q = .fetch) ∨
  (p = .fetch ∧ (q = .stop ∨ ∃ cmd, q = .exec cmd)) ∨
  (∃ cmd, p = .exec cmd ∧ q = .fetch) ∨
  (p = .stop ∧ q = .release .success) ∨
  ∃ st, p = .release st ∧ q = .exited st

/-- A lifecycle operation reports, or makes the last move of its phase (rules R164, R166). -/
theorem runLifeOp_listedMove {s : State} {op : LifeOp} {rest : List LifeOp} (h : SessionInv s)
    (hl : s.life = op :: rest) (hp : s.phase = .map ∨ ∃ st, s.phase = .release st) :
    ListedMove s.phase (runLifeOp op rest s).phase := by
  rcases h.life_cases hl hp with ⟨hp, rfl, -⟩ | ⟨st, hp, rfl, -⟩ | ⟨-, rfl, -⟩
  · exact .inr (.inl ⟨hp, .inr rfl⟩)
  · exact .inr (.inr (.inr (.inr (.inr (.inr ⟨st, hp, rfl⟩)))))
  · exact .inl rfl

/-- The block's own step, phase by phase. -/
theorem blockStep_listedMove {tn : Turn} {s t : State} (hinv : SessionInv s)
    (h : blockStep tn s = .next t) : ListedMove s.phase t.phase := by
  rcases blockStep_cases h with ⟨hp, _, rfl⟩ | ⟨op, rest, hp, hl, rfl⟩ | ⟨hp, hrun⟩ |
    ⟨_, _, rfl⟩ | ⟨u, rest, hp, _, hexec⟩ | ⟨cmd, hp, hexec⟩ | ⟨hp, _, hrun⟩ | ⟨hp, _, hrun⟩ |
    ⟨st, _, _, rfl⟩
  · exact (acquire_phase tn.acquireOk s).imp_right fun hq => .inl ⟨hp, .inl hq⟩
  · exact runLifeOp_listedMove hinv hl hp
  · exact (runTodo_phase hrun).imp_right fun hq => .inr (.inl ⟨hp, hq⟩)
  · exact .inl rfl
  · rcases execCmd_fetch_phase (s := s.consume rest) hp hexec with hq | hq | ⟨hq, -⟩
    · exact .inl (hq.trans hp.symm)
    · exact .inr (.inr (.inr (.inl ⟨hp, .inr ⟨_, hq⟩⟩)))
    · exact .inr (.inr (.inr (.inl ⟨hp, .inl hq⟩)))
  · rw [execCmd_running hp (hinv.exec_left hp).2] at hexec
    exact (runTodo_phase hexec).imp_right fun hq => .inr (.inr (.inr (.inl ⟨cmd, hp, hq⟩)))
  · exact (runTodo_phase hrun).imp_right fun hq => .inr (.inr (.inr (.inr (.inl ⟨hp, hq⟩))))
  · exact (runTodo_phase hrun).imp_right fun hq => .inr (.inr (.inr (.inr (.inl ⟨hp, hq⟩))))
  · exact .inl rfl

/-- Settles O14: the turn and a termination keep the phase. -/
theorem phasesMoveAsListed : Obligations.PhasesMoveAsListed := by
  intro s t hinv h
  rcases step_cases h with ⟨_, _, rfl⟩ | ⟨_, hblock⟩
  · exact .inl (by rw [State.setKilled_phase, worldMove_phase])
  · have hmove := blockStep_listedMove (sessionInv_worldMove hinv) hblock
    rw [worldMove_phase] at hmove
    exact hmove

/-! ### The ENABLE bit -/

/-- Where the ENABLE bit holds ENABLE_ON, the phase does not matter. -/
theorem tapEnabled_of_bit {s : State} (h : bitAt s.reg Config.bEnable = Config.enableOn) :
    TapEnabled s := by
  unfold TapEnabled
  cases s.phase <;> simp only [h]

/-- Outside FETCH, EXEC and STOP nothing is asked of the ENABLE bit. -/
theorem tapEnabled_of_phase {s : State}
    (h : s.phase = .map ∨ s.phase = .start ∨ ∃ st, s.phase = .release st ∨ s.phase = .exited st) :
    TapEnabled s := by
  rcases h with hp | hp | ⟨st, hp | hp⟩ <;> simp only [TapEnabled, hp]

/-- In FETCH, EXEC and STOP the ENABLE bit holds ENABLE_ON. -/
theorem TapEnabled.bit {s : State} (h : TapEnabled s)
    (hp : s.phase = .fetch ∨ s.phase = .stop ∨ ∃ cmd, s.phase = .exec cmd) :
    bitAt s.reg Config.bEnable = Config.enableOn := by
  rcases hp with hp | hp | ⟨cmd, hp⟩ <;> simpa only [TapEnabled, hp] using h

/-- The environment does not move the ENABLE bit (rules R26, R57). -/
theorem tapEnabled_worldMove {s : State} (h : TapEnabled s) : TapEnabled (worldMove s) := by
  have hbit : bitAt (worldMove s).reg Config.bEnable = bitAt s.reg Config.bEnable :=
    worldMove_softBit (bitOf_mem_softBits .enable)
  simpa only [TapEnabled, worldMove_phase, hbit] using h

theorem tapEnabled_setKilled {s : State} (h : TapEnabled s) : TapEnabled s.setKilled := by
  unfold TapEnabled at h ⊢
  exact h

/-- Only a WR of ENABLE changes the ENABLE bit: the WR of another line writes it back as the held
word has it, which mirrors the register (rules R54, R160). -/
theorem runOp_enable {op : MicroOp} {rest : List MicroOp} {s t : State} (hm : LineMirror s)
    (hop : ∀ l, op ≠ .wr .enable l) (h : runOp op rest s = .ok t) :
    bitAt t.reg Config.bEnable = bitAt s.reg Config.bEnable := by
  by_contra hne
  obtain ⟨-, line, l, v, rfl, -, ⟨hline, -⟩ | ⟨hsoft, -⟩⟩ := runOp_bit_changed hm h hne
  · obtain rfl : Line.enable = line := (bitOf_eq_iff .enable line).mp hline
    exact hop l rfl
  · exact hsoft (bitOf_mem_softBits .enable)

/-- No command drives ENABLE (rules R136, R160). -/
theorem LeftOf.not_wr_enable {cmd : Cmd} {op : MicroOp} {rest : List MicroOp}
    (h : LeftOf cmd (op :: rest)) (l : Level) : op ≠ .wr .enable l := by
  rintro rfl
  rcases h.cases with ⟨c, m, d, w, -, hleft⟩ | ⟨-, hleft⟩ | ⟨b, -, hleft, -⟩
  · exact line_ne_enable_of_wr hleft rfl
  · simp [List.suffix_cons_iff] at hleft
  · simp [List.suffix_cons_iff] at hleft

/-- A running command leaves the ENABLE bit alone. -/
theorem runTodo_exec_enable {cmd : Cmd} {s t : State} (hinv : SessionInv s) (hm : LineMirror s)
    (hp : s.phase = .exec cmd) (h : runTodo .fetch s = .next t) :
    bitAt t.reg Config.bEnable = bitAt s.reg Config.bEnable := by
  obtain ⟨hne, hleft⟩ := hinv.exec_left hp
  rcases runTodo_cases h with ⟨hnil, _⟩ | ⟨op, rest, s', htodo, hop, rfl⟩
  · exact absurd hnil hne
  · rw [htodo] at hleft
    rw [settle_eq, State.setPhase_reg]
    exact runOp_enable hm hleft.not_wr_enable hop

/-- START moves on to FETCH by writing ENABLE_ON to the ENABLE bit (rules R160, R164). -/
theorem runTodo_start_tapEnabled {s t : State} (hinv : SessionInv s) (hp : s.phase = .start)
    (h : runTodo .fetch s = .next t) : TapEnabled t := by
  have hmapped := hinv.mapped (.inl hp)
  rcases hinv.start_left hp with htodo | ⟨htodo, v, hheld⟩
  · rw [runTodo_tapEnable_rd htodo hmapped, Host.Outcome.next.injEq] at h
    subst h
    exact tapEnabled_of_phase (.inr (.inl hp))
  · rw [runTodo_tapEnable_wr htodo hmapped hheld, Host.Outcome.next.injEq] at h
    subst h
    have hbit : Config.bEnable ∉ inputBits := bitOf_not_input .enable
    exact tapEnabled_of_bit (by simp [hbit, enableLevel])

/-- The first step of STOP only reads (rules R161, R164). -/
theorem runTodo_stop_load_tapEnabled {s t : State} (hinv : SessionInv s) (hp : s.phase = .stop)
    (he : TapEnabled s)
    (h : runTodo (.release .success) (s.setTodo (tapEnableOps false)) = .next t) :
    TapEnabled t := by
  have hmapped := hinv.mapped (.inr (.inl hp))
  have hrd := runTodo_tapEnable_rd (after := .release .success) (on := false)
    (s := s.setTodo (tapEnableOps false)) rfl hmapped
  rw [hrd, Host.Outcome.next.injEq] at h
  subst h
  exact tapEnabled_of_bit (he.bit (.inr (.inl hp)))

/-- The second step of STOP, which disables the TAP, leaves STOP (rules R161, R164). -/
theorem runTodo_stop_write_tapEnabled {s t : State} (hinv : SessionInv s) (hp : s.phase = .stop)
    (hne : s.todo ≠ []) (h : runTodo (.release .success) s = .next t) : TapEnabled t := by
  have hmapped := hinv.mapped (.inr (.inl hp))
  rcases hinv.stop_left hp with hnil | ⟨htodo, v, hheld⟩
  · exact absurd hnil hne
  · rw [runTodo_tapEnable_wr htodo hmapped hheld, Host.Outcome.next.injEq] at h
    subst h
    exact tapEnabled_of_phase (.inr (.inr ⟨.success, .inl rfl⟩))

/-- The block's own step, phase by phase. -/
theorem blockStep_tapEnabled {tn : Turn} {s t : State} (hinv : SessionInv s) (hm : LineMirror s)
    (he : TapEnabled s) (h : blockStep tn s = .next t) : TapEnabled t := by
  rcases blockStep_cases h with ⟨hp, _, rfl⟩ | ⟨op, rest, hp, hl, rfl⟩ | ⟨hp, hrun⟩ |
    ⟨_, _, rfl⟩ | ⟨u, rest, hp, _, hexec⟩ | ⟨cmd, hp, hexec⟩ | ⟨hp, _, hrun⟩ | ⟨hp, hne, hrun⟩ |
    ⟨st, hp, _, rfl⟩
  · refine tapEnabled_of_phase ?_
    rcases acquire_phase tn.acquireOk s with hq | hq
    · exact .inl (hq.trans hp)
    · exact .inr (.inl hq)
  · refine tapEnabled_of_phase (.inr (.inr ?_))
    rcases hinv.life_cases hl hp with ⟨-, rfl, -⟩ | ⟨st, -, rfl, -⟩ | ⟨hp, rfl, -⟩
    · exact ⟨.failure, .inl rfl⟩
    · exact ⟨st, .inr rfl⟩
    · exact ⟨.failure, .inl hp⟩
  · exact runTodo_start_tapEnabled hinv hp hrun
  · exact he
  · obtain ⟨ops, after, rfl⟩ := execCmd_fetch_cases (s := s.consume rest) hp hexec
    rw [dispatch_eq]
    exact tapEnabled_of_bit (he.bit (.inl hp))
  · rw [execCmd_running hp (hinv.exec_left hp).2] at hexec
    have hbit := he.bit (.inr (.inr ⟨cmd, hp⟩))
    exact tapEnabled_of_bit ((runTodo_exec_enable hinv hm hp hexec).trans hbit)
  · exact runTodo_stop_load_tapEnabled hinv hp he hrun
  · exact runTodo_stop_write_tapEnabled hinv hp hne hrun
  · exact tapEnabled_of_phase (.inr (.inr ⟨st, .inl hp⟩))

/-- Settles O56: the bit is the block's own, FETCH is entered with ENABLE_ON written, and only the
step that leaves STOP writes it again. -/
theorem tapStaysEnabled : Obligations.TapStaysEnabled := by
  intro s t hinv hm he h
  have he' := tapEnabled_worldMove he
  rcases step_cases h with ⟨_, _, rfl⟩ | ⟨_, hblock⟩
  · exact tapEnabled_setKilled he'
  · exact blockStep_tapEnabled (sessionInv_worldMove hinv) (lineMirror_worldMove hm) he' hblock

end Sys2Proof.Machine
end

section
/-! PROOFS of the statements from spec/43_tap_enable.md, part 3: whole runs from MAP, to the first
fetch (rules R160 to R164) and to the exit after a failed mapping (rules R166, R167). -/

namespace Sys2Proof.Machine

/-! ### Steps of MAP and START -/

/-- `acquire()` is the first step of MAP (rules R164, R165). -/
theorem step_map_acquire {s : State} (ht : TakesStep s) (hp : s.phase = .map)
    (hl : s.life = []) : step s = .next (acquire (nextTurn s).acquireOk (worldMove s)) := by
  rw [step_eq_blockStep ht]
  simp only [blockStep, worldMove_phase, hp, mapStep, worldMove_life, hl]

/-- After a failed `acquire()` the pending lifecycle operations run (rules R164, R166). -/
theorem step_map_lifeOp {s : State} {op : LifeOp} {ops : List LifeOp} (ht : TakesStep s)
    (hp : s.phase = .map) (hl : s.life = op :: ops) :
    step s = .next (runLifeOp op ops (worldMove s)) := by
  rw [step_eq_blockStep ht]
  simp only [blockStep, worldMove_phase, hp, mapStep, worldMove_life, hl]

/-- START works on its list (rule R164). -/
theorem step_start {s : State} (ht : TakesStep s) (hp : s.phase = .start) :
    step s = runTodo .fetch (worldMove s) := by
  rw [step_eq_blockStep ht]
  simp only [blockStep, worldMove_phase, hp, startStep]

/-! ### The session start -/

/-- START enables the TAP by one read-modify-write and goes to FETCH (rules R160, R161, R162,
R164). -/
theorem run_start {s : State} (he : ended s = none) (hc : CalmFor 2 s) (hp : s.phase = .start)
    (ht : s.todo = tapEnableOps true) (hm : s.mapped = true) :
    ∃ (t : State) (v : Word), run 2 s = .next t ∧ KeepsStreams s t ∧ t.phase = .fetch ∧
      t.todo = [] ∧ t.mapped = true ∧ t.mapLog = s.mapLog ∧
      t.regLog = s.regLog ++ [.rd v, .wr (insertBit Config.bEnable Config.enableOn v)] ∧
      bitAt t.reg Config.bEnable = Config.enableOn := by
  obtain ⟨hk, -⟩ := ended_none_iff.mp he
  have hrd := (step_start (hc.takesStep he) hp).trans
    (runTodo_tapEnable_rd ((worldMove_todo s).trans ht) ((worldMove_mapped s).trans hm))
  generalize hu : (((worldMove s).pushReg (.rd (worldMove s).reg)).setHeld
    (some (worldMove s).reg)).setTodo [.wr .enable (enableLevel true)] = u at hrd
  have hcu : CalmFor 1 u := hc.tail (by simp [← hu])
  have heu : ended u = none := ended_none_iff.mpr (by simp [← hu, hk, hp])
  have hwr := (step_start (hcu.takesStep heu) (by simp [← hu, hp])).trans
    (runTodo_tapEnable_wr (l := enableLevel true) (v := (worldMove s).reg)
      (by rw [← hu]; rfl) (by simp [← hu, hm]) (by rw [← hu]; rfl))
  have henable : enableLevel true = Config.enableOn := rfl
  have hbit : Config.bEnable ∉ inputBits := bitOf_not_input .enable
  refine ⟨_, (worldMove s).reg, (run_succ 1 hrd).trans (run_succ 0 hwr), ?_⟩
  subst hu
  refine ⟨?_, ?_⟩
  · constructor <;> simp [SameDriver, List.append_assoc]
  · simp [henable, hbit, hm]

/-- A granted `acquire()` leaves the streams alone. -/
theorem keepsStreams_acquire_ok (s : State) : KeepsStreams s (acquire true (worldMove s)) := by
  constructor <;> simp [SameDriver, acquire]

/-- Settles O41: `acquire()`, then START's read-modify-write of the ENABLE bit. -/
theorem sessionStartEnablesTap : Obligations.SessionStartEnablesTap := by
  intro s t₁ t₂ t₃ ts he hp hl hturns hk₁ hk₂ hk₃ hok
  have hcalm : CalmFor 3 s := by simp [CalmFor, hturns, hk₁, hk₂, hk₃]
  have hnext : nextTurn s = t₁ := by simp [nextTurn, hturns]
  have hacquire := step_map_acquire (hcalm.takesStep he) hp hl
  rw [hnext, hok] at hacquire
  have hsu := keepsStreams_acquire_ok s
  generalize hu : acquire true (worldMove s) = u at hacquire hsu
  have hpu : u.phase = .start := by simp [← hu, acquire]
  have heu : ended u = none :=
    ended_none_iff.mpr ⟨hsu.killed.trans (ended_none_iff.mp he).1, by simp [hpu]⟩
  obtain ⟨t, v, hrun, hut, hpt, htodo, hmapped, hlog, hreg, henable⟩ :=
    run_start heu (hcalm.tail (by simp [← hu, acquire])) hpu (by simp [← hu, acquire])
      (by simp [← hu, acquire])
  have hst := hsu.trans hut
  have hlogu : u.mapLog = s.mapLog ++ [.acquired] := by simp [← hu, acquire]
  have hregu : u.regLog = s.regLog := by simp [← hu, acquire]
  exact ⟨t, v, insertBit Config.bEnable Config.enableOn v, (run_succ 2 hacquire).trans hrun, hpt,
    htodo, hmapped, by rw [hlog, hlogu], by rw [hreg, hregu], fun i => bitAt_insertBit _ i _ v,
    henable, hst.pos, hst.driver, hst.out, hst.diag⟩

/-! ### The failure path -/

/-- Without a register access, a fetch or a byte sent: only the phase, the lifecycle, the mapping and
the reports move on, and the outside world does (rules R26, R57, R166). -/
structure NoAccess (s t : State) : Prop where
  regLog : t.regLog = s.regLog
  pos : t.pos = s.pos
  input : ∃ us, t.input = s.input ++ us
  out : t.out = s.out
  driver : SameDriver s t
  killed : t.killed = s.killed
  softBits : ∀ i ∈ softBits, bitAt t.reg i = bitAt s.reg i

theorem NoAccess.trans {s t u : State} (h : NoAccess s t) (h' : NoAccess t u) : NoAccess s u where
  regLog := h'.regLog.trans h.regLog
  pos := h'.pos.trans h.pos
  input := by
    obtain ⟨us, hus⟩ := h.input
    obtain ⟨vs, hvs⟩ := h'.input
    exact ⟨us ++ vs, by rw [hvs, hus, List.append_assoc]⟩
  out := h'.out.trans h.out
  driver := h.driver.trans h'.driver
  killed := h'.killed.trans h.killed
  softBits i hi := (h'.softBits i hi).trans (h.softBits i hi)

theorem noAccess_acquire (ok : Bool) (s : State) : NoAccess s (acquire ok (worldMove s)) := by
  cases ok <;> constructor <;> simp +contextual [SameDriver, acquire]

theorem noAccess_release (report : Bool) (st : Status) (s : State) :
    NoAccess s (release report st (worldMove s)) := by
  constructor <;> simp +contextual [SameDriver, release]

theorem noAccess_runLifeOp (op : LifeOp) (rest : List LifeOp) (s : State) :
    NoAccess s (runLifeOp op rest (worldMove s)) := by
  cases op <;> constructor <;> simp +contextual [SameDriver, runLifeOp, raiseEvent]

/-- What ends RELEASE(FAILURE) once the mapping is released (rules R164, R167). -/
theorem run_exit_failure {s : State} (he : ended s = none) (hc : CalmFor 1 s)
    (hp : s.phase = .release .failure) (hl : s.life = [.exit .failure]) :
    ∃ t, run 1 s = .next t ∧ NoAccess s t ∧ t.phase = .exited .failure ∧ t.diag = s.diag ∧
      t.mapLog = s.mapLog := by
  have hexit := step_release_lifeOp (hc.takesStep he) hp hl
  refine ⟨_, run_succ 0 hexit, noAccess_runLifeOp _ _ s, ?_⟩
  simp [runLifeOp]

/-- With the report of UNMAP_WITHOUT_MAP before the exit (rule R167). -/
theorem run_report_exit_failure {s : State} (he : ended s = none) (hc : CalmFor 2 s)
    (hp : s.phase = .release .failure) (hl : s.life = [.reportUnmap, .exit .failure]) :
    ∃ t, run 2 s = .next t ∧ NoAccess s t ∧ t.phase = .exited .failure ∧
      t.diag = s.diag ++ [.unmapWithoutMap] ∧ t.mapLog = s.mapLog := by
  have hreport := step_release_lifeOp (hc.takesStep he) hp hl
  have hsu := noAccess_runLifeOp .reportUnmap [.exit .failure] s
  generalize hu : runLifeOp .reportUnmap [.exit .failure] (worldMove s) = u at hreport hsu
  have hpu : u.phase = .release .failure := by simp [← hu, runLifeOp, raiseEvent, hp]
  have heu : ended u = none :=
    ended_none_iff.mpr ⟨hsu.killed.trans (ended_none_iff.mp he).1, by simp [hpu]⟩
  obtain ⟨t, hrun, hut, hpt, hdiag, hlog⟩ :=
    run_exit_failure heu (hc.tail (by simp [← hu, runLifeOp, raiseEvent])) hpu
      (by simp [← hu, runLifeOp])
  refine ⟨t, (run_succ 1 hreport).trans hrun, hsu.trans hut, hpt, ?_, ?_⟩
  · simp [hdiag, ← hu, runLifeOp, raiseEvent]
  · simp [hlog, ← hu, runLifeOp, raiseEvent]

/-- RELEASE(FAILURE) releases once, reports UNMAP_WITHOUT_MAP if its first turn draws it, and exits
(rules R164, R167). -/
theorem run_release_failure {s : State} (he : ended s = none) (hc : CalmFor 3 s)
    (hp : s.phase = .release .failure) (hl : s.life = []) :
    ∃ t, run (if (nextTurn s).unmapReport = true then 3 else 2) s = .next t ∧ NoAccess s t ∧
      t.phase = .exited .failure ∧ t.mapLog = s.mapLog ++ [.released] ∧
      t.diag = s.diag ++
        if (nextTurn s).unmapReport = true then [.unmapWithoutMap] else [] := by
  have hrelease := step_release (hc.takesStep he) hp hl
  generalize hr : (nextTurn s).unmapReport = report at hrelease ⊢
  have hsu := noAccess_release report .failure s
  have hlife : (release report .failure (worldMove s)).life = afterRelease report .failure :=
    State.setLife_life _ _
  generalize hu : release report .failure (worldMove s) = u at hrelease hsu hlife
  have hpu : u.phase = .release .failure := by simp [← hu, release, hp]
  have heu : ended u = none :=
    ended_none_iff.mpr ⟨hsu.killed.trans (ended_none_iff.mp he).1, by simp [hpu]⟩
  have hcu : CalmFor 2 u := hc.tail (by simp [← hu, release])
  have hlogu : u.mapLog = s.mapLog ++ [.released] := by simp [← hu, release]
  have hdiagu : u.diag = s.diag := by simp [← hu, release]
  cases report with
  | true =>
    obtain ⟨t, hrun, hut, hpt, hdiag, hlog⟩ := run_report_exit_failure heu hcu hpu hlife
    exact ⟨t, (run_succ 2 hrelease).trans hrun, hsu.trans hut, hpt, hlog.trans hlogu,
      by rw [hdiag, hdiagu]; rfl⟩
  | false =>
    have hcu' : CalmFor 1 u := by
      obtain ⟨x, ys, hturns, hk, -⟩ := calmFor_succ hcu
      simp [CalmFor, hturns, hk]
    obtain ⟨t, hrun, hut, hpt, hdiag, hlog⟩ := run_exit_failure heu hcu' hpu hlife
    exact ⟨t, (run_succ 1 hrelease).trans hrun, hsu.trans hut, hpt, hlog.trans hlogu,
      by rw [hdiag, hdiagu]; exact (List.append_nil _).symm⟩

/-- MAP with a refused `acquire()` reports MAP_FAIL and goes to RELEASE(FAILURE) (rules R164,
R166). -/
theorem run_map_failure {s : State} {n : Nat} (he : ended s = none) (hc : CalmFor (n + 2) s)
    (hp : s.phase = .map) (hl : s.life = []) (hok : (nextTurn s).acquireOk = false) :
    ∃ t, run 2 s = .next t ∧ CalmFor n t ∧ NoAccess s t ∧ t.phase = .release .failure ∧
      t.life = [] ∧ t.mapLog = s.mapLog ++ [.acquireFailed] ∧ t.diag = s.diag ++ [.mapFail] ∧
      t.turns = s.turns.tail.tail := by
  have hacquire := step_map_acquire (hc.takesStep he) hp hl
  rw [hok] at hacquire
  have hsu := noAccess_acquire false s
  generalize hu : acquire false (worldMove s) = u at hacquire hsu
  have hpu : u.phase = .map := by simp [← hu, acquire, hp]
  have heu : ended u = none :=
    ended_none_iff.mpr ⟨hsu.killed.trans (ended_none_iff.mp he).1, by simp [hpu]⟩
  have hcu : CalmFor (n + 1) u := hc.tail (by simp [← hu, acquire])
  have hreport := step_map_lifeOp (op := .reportMapFail) (ops := []) (hcu.takesStep heu) hpu
    (by simp [← hu, acquire])
  refine ⟨_, (run_succ 1 hacquire).trans (run_succ 0 hreport),
    hcu.tail (by simp [runLifeOp, raiseEvent]), hsu.trans (noAccess_runLifeOp _ _ u), ?_⟩
  simp [runLifeOp, raiseEvent, ← hu, acquire]

/-- Settles O42: the refused `acquire()` and its report, then RELEASE(FAILURE), whose first turn is
the third. -/
theorem mappingFailureEndsWithoutAccess : Obligations.MappingFailureEndsWithoutAccess := by
  intro s t₁ t₂ t₃ t₄ t₅ ts he hp hl hturns hk₁ hk₂ hk₃ hk₄ hk₅ hok
  have hcalm : CalmFor 5 s := by simp [CalmFor, hturns, hk₁, hk₂, hk₃, hk₄, hk₅]
  have hnext : nextTurn s = t₁ := by simp [nextTurn, hturns]
  obtain ⟨hk, -⟩ := ended_none_iff.mp he
  obtain ⟨u, hrunu, hcu, hsu, hpu, hlu, hlogu, hdiagu, hturnsu⟩ :=
    run_map_failure he hcalm hp hl (hnext ▸ hok)
  have heu : ended u = none := ended_none_iff.mpr ⟨hsu.killed.trans hk, by simp [hpu]⟩
  have hnextu : nextTurn u = t₃ := by simp [nextTurn, hturnsu, hturns]
  obtain ⟨t, hrunt, hut, hpt, hlogt, hdiagt⟩ := run_release_failure heu hcu hpu hlu
  rw [hnextu] at hrunt hdiagt
  have hst := hsu.trans hut
  have hexit : exitOutput t = some (.code Config.exitFail) := by
    simp [exitOutput, hst.killed, hk, hpt]
  have hrun : run (if t₃.unmapReport = true then 5 else 4) s = .next t := by
    rw [← hrunt, ← run_add 2 _ hrunu]
    split_ifs <;> rfl
  have hdiag : t.diag = s.diag ++ if t₃.unmapReport = true then [.mapFail, .unmapWithoutMap]
      else [.mapFail] := by
    rw [hdiagt, hdiagu]
    split_ifs <;> simp
  obtain ⟨us, hus⟩ := hst.input
  exact ⟨t, us, hrun, hpt, hexit, hdiag, by rw [hlogt, hlogu, List.append_assoc]; rfl, hst.regLog,
    hst.pos, hus, hst.out, hst.driver, hst.softBits⟩

end Sys2Proof.Machine
end

section
/-! PROOFS of the statements from spec/60_exceptions.md: a poll without its acknowledge (rule R174),
what each diagnostic report changes (rules R172, R173, R175), and termination (rule R180). -/

namespace Sys2Proof.Machine

/-! ### Termination -/

/-- A terminated block takes no further step (rule R180). -/
theorem step_of_killed {s : State} (hk : s.killed = true) : step s = .fault .terminated := by
  have hended : ended s = some .terminated := by simp [ended, hk]
  simp [step, machineStep, hended]

/-- In a turn with a termination only the outside world moves (rules R57, R180). -/
theorem step_of_kill {s : State} (he : ended s = none) (hk : (nextTurn s).kill = true) :
    step s = .next (worldMove s).setKilled := by
  simp [step, machineStep, he, hk]

/-- Settles O44: the turn leaves the block's fields and the software-driven bits alone, and the
termination adds its mark only. -/
theorem terminationStopsTheBlock : Obligations.TerminationStopsTheBlock := by
  intro s he hk
  have hsame : SameBlock s (worldMove s).setKilled := by simp [SameBlock]
  have hexit : exitOutput (worldMove s).setKilled = some .killed :=
    (exitOutputsAreDistinct.2 _).1 rfl
  exact ⟨(worldMove s).setKilled, step_of_kill he hk, hsame, hexit,
    fun i hi => worldMove_softBit hi, step_of_killed rfl⟩

/-! ### A poll without its acknowledge -/

/-- From `s` to `t` the block makes the register reads `vs` and nothing else (rule R174). -/
structure OnlyReads (vs : List Word) (s t : State) : Prop where
  regLog : t.regLog = s.regLog ++ vs.map .rd
  phase : t.phase = s.phase
  todo : t.todo = s.todo
  driver : SameDriver s t
  session : SameSession s t
  out : t.out = s.out
  diag : t.diag = s.diag
  killed : t.killed = s.killed
  softBits : ∀ i ∈ softBits, bitAt t.reg i = bitAt s.reg i

theorem OnlyReads.nil (s : State) : OnlyReads [] s s := by
  constructor <;> simp [SameDriver, SameSession]

theorem SameSession.trans {s t u : State} (h : SameSession s t) (h' : SameSession t u) :
    SameSession s u := by
  obtain ⟨hmapped, hpos, hlife, hlog⟩ := h
  obtain ⟨hmapped', hpos', hlife', hlog'⟩ := h'
  exact ⟨hmapped'.trans hmapped, hpos'.trans hpos, hlife'.trans hlife, hlog'.trans hlog⟩

theorem OnlyReads.append {vs ws : List Word} {s t u : State} (h : OnlyReads vs s t)
    (h' : OnlyReads ws t u) : OnlyReads (vs ++ ws) s u where
  regLog := by rw [h'.regLog, h.regLog, List.map_append, List.append_assoc]
  phase := h'.phase.trans h.phase
  todo := h'.todo.trans h.todo
  driver := h.driver.trans h'.driver
  session := h.session.trans h'.session
  out := h'.out.trans h.out
  diag := h'.diag.trans h.diag
  killed := h'.killed.trans h.killed
  softBits i hi := (h'.softBits i hi).trans (h.softBits i hi)

/-- A poll whose read does not match only records the read (rule R134). -/
theorem runTodo_poll_unmatched {after : Phase} {s : State} {e : Level} {rest : List MicroOp}
    (ht : s.todo = .poll e :: rest) (hm : s.mapped = true)
    (hack : bitAt s.reg Config.bClockAck ≠ e) :
    runTodo after s = .next (s.pushReg (.rd s.reg)) := by
  have hop : runOp (.poll e) rest s = .ok (s.pushReg (.rd s.reg)) := by simp [runOp, hm, hack]
  rw [runTodo_cons ht hop, settle_of_todo_cons (s := s.pushReg (.rd s.reg)) ht]

/-- The machine's step on a poll of a running WRITE, in a turn that does not acknowledge. -/
theorem step_poll_unmatched {c m d : Level} {s : State} {e : Level} {rest : List MicroOp}
    (hstep : TakesStep s) (hm : s.mapped = true) (hp : s.phase = .exec (.instr (.write c m d)))
    (ht : s.todo = .poll e :: rest) (hack : bitAt (worldMove s).reg Config.bClockAck ≠ e) :
    step s = .next ((worldMove s).pushReg (.rd (worldMove s).reg)) := by
  rw [← worldMove_todo] at ht
  rw [← worldMove_mapped] at hm
  rw [step_write_running hstep hp, runTodo_poll_unmatched ht hm hack]

theorem onlyReads_pushReg (s : State) :
    OnlyReads [(worldMove s).reg] s ((worldMove s).pushReg (.rd (worldMove s).reg)) := by
  constructor <;> simp +contextual [SameDriver, SameSession]

/-- Without the acknowledge a poll goes on for any number of steps (rules R134, R174). -/
theorem run_poll_unmatched {n : Nat} {c m d : Level} {s : State} {e : Level}
    {rest : List MicroOp} (he : ended s = none) (hc : CalmFor n s) (hack : AckFor n (!e) s)
    (hm : s.mapped = true) (hp : s.phase = .exec (.instr (.write c m d)))
    (ht : s.todo = .poll e :: rest) :
    ∃ t vs, run n s = .next t ∧ vs.length = n ∧ OnlyReads vs s t := by
  induction n generalizing s with
  | zero => exact ⟨s, [], run_zero s, rfl, .nil s⟩
  | succ n ih =>
    have hne : bitAt (worldMove s).reg Config.bClockAck ≠ e := by
      rw [hack.clockAck hc]
      simp
    have hstep := step_poll_unmatched (hc.takesStep he) hm hp ht hne
    have hread := onlyReads_pushReg s
    have hturns : ((worldMove s).pushReg (.rd (worldMove s).reg)).turns = s.turns.tail := rfl
    generalize (worldMove s).pushReg (.rd (worldMove s).reg) = u at hstep hread hturns
    have hpu := hread.phase.trans hp
    have heu : ended u = none :=
      ended_none_iff.mpr ⟨hread.killed.trans (ended_none_iff.mp he).1, by simp [hpu]⟩
    obtain ⟨t, vs, hrun, hlen, hreads⟩ := ih heu (hc.tail hturns) (hack.tail hturns)
      (hread.session.1.trans hm) hpu (hread.todo.trans ht)
    exact ⟨t, (worldMove s).reg :: vs, (run_succ n hstep).trans hrun, by simp [hlen],
      hread.append hreads⟩

/-- Settles O27, by induction on the number of steps. -/
theorem pollHangsWithoutAcknowledge : Obligations.PollHangsWithoutAcknowledge := by
  intro n c m d s e rest he hc hack hm hp ht
  obtain ⟨t, vs, hrun, hlen, h⟩ := run_poll_unmatched he hc hack hm hp ht
  exact ⟨t, vs, hrun, hlen, h.regLog, h.phase, h.todo, h.driver, h.session, h.out, h.diag,
    h.softBits⟩

/-! ### The three reports -/

/-- Working on a list reports nothing, unless the report of an invalid byte is its head (rule
R118). -/
theorem runTodo_diag {after : Phase} {s t : State} (h : runTodo after s = .next t) :
    t.diag = s.diag ∨ ∃ b rest, s.todo = .diagu b :: rest := by
  rcases runTodo_cases h with ⟨_, rfl⟩ | ⟨op, rest, s', htodo, hop, rfl⟩
  · exact .inl rfl
  · rw [settle_eq, State.setPhase_diag]
    rcases runOp_diag hop with ⟨-, hsame⟩ | ⟨b, rfl, -⟩
    · exact .inl hsame
    · exact .inr ⟨b, rest, htodo⟩

/-- The block's own step reports nothing, unless the report of an invalid byte or a lifecycle
operation is next (rules R118, R166, R167). -/
theorem blockStep_diag {tn : Turn} {s t : State} (h : blockStep tn s = .next t) :
    t.diag = s.diag ∨ (∃ b rest, pendingOps s = .diagu b :: rest) ∨
    ∃ op rest, (s.phase = .map ∨ ∃ st, s.phase = .release st) ∧ s.life = op :: rest ∧
      t = runLifeOp op rest s := by
  have runs {after} (hpend : s.phase ≠ .stop ∨ s.todo ≠ [])
      (hrun : runTodo after s = .next t) :
      t.diag = s.diag ∨ ∃ b rest, pendingOps s = .diagu b :: rest := by
    rw [pendingOps_eq_todo hpend]
    exact runTodo_diag hrun
  rw [← or_assoc]
  rcases blockStep_cases h with ⟨_, _, rfl⟩ | hlife | ⟨hp, hrun⟩ | ⟨_, _, rfl⟩ |
    ⟨u, rest, hp, _, hexec⟩ | ⟨cmd, hp, hexec⟩ | ⟨hp, ht, hrun⟩ | ⟨_, ht, hrun⟩ | ⟨st, _, _, rfl⟩
  · exact .inl (.inl (by cases tn.acquireOk <;> rfl))
  · exact .inr hlife
  · exact .inl (runs (.inl (by simp [hp])) hrun)
  · exact .inl (.inl rfl)
  · obtain ⟨ops, after, rfl⟩ := execCmd_fetch_cases (s := s.consume rest) hp hexec
    exact .inl (.inl (by rw [dispatch_eq]; rfl))
  · obtain ⟨after, hrun⟩ := execCmd_exec_cases hp hexec
    exact .inl (runs (.inl (by simp [hp])) hrun)
  · rw [← pendingOps_stop hp ht] at hrun
    exact .inl (runTodo_diag hrun)
  · exact .inl (runs (.inr ht) hrun)
  · exact .inl (.inl rfl)

/-- The same for a step of the machine: the turn and a termination report nothing. -/
theorem step_diag {s t : State} (h : step s = .next t) :
    t.diag = s.diag ∨ (TakesStep s ∧ ∃ b rest, pendingOps s = .diagu b :: rest) ∨
    ∃ op rest, (s.phase = .map ∨ ∃ st, s.phase = .release st) ∧ s.life = op :: rest ∧
      t = runLifeOp op rest (worldMove s) := by
  rcases step_cases h with ⟨_, _, rfl⟩ | ⟨ht, hblock⟩
  · exact .inl (worldMove_diag s)
  · have hcases := blockStep_diag hblock
    rw [worldMove_diag, pendingOps_worldMove, worldMove_phase, worldMove_life] at hcases
    exact hcases.imp_right (.imp_left fun hpend => ⟨ht, hpend⟩)

/-- Only an invalid byte lists its report, and the report is all its list (rule R118). -/
theorem LeftOf.eq_invalid_of_diagu {cmd : Cmd} {b : Byte} {rest : List MicroOp}
    (h : LeftOf cmd (.diagu b :: rest)) :
    cmd = .invalid b ∧ rest = [] ∧ isInvalidByte b = true := by
  rcases h.cases with ⟨c, m, d, w, rfl, hleft⟩ | ⟨rfl, hleft⟩ | ⟨b', rfl, hleft, hb⟩
  · rcases driverOps_suffix_cases hleft with ⟨_, _, hop, _⟩ | ⟨_, hop, _⟩ | ⟨hop, _⟩ |
      ⟨hop, _⟩ <;> cases hop
  · have hmem : MicroOp.diagu b ∈ [.sample, .emit] := hleft.subset (List.mem_cons_self ..)
    simp at hmem
  · simp only [List.suffix_cons_iff, List.suffix_nil, reduceCtorEq, or_false, List.cons.injEq,
      MicroOp.diagu.injEq] at hleft
    obtain ⟨rfl, rfl⟩ := hleft
    exact ⟨rfl, rfl, hb⟩

/-- When the report of a byte is the next operation, the byte is invalid and running, and the report
is all that is left of it. -/
theorem SessionInv.invalid_of_diagu {s : State} {b : Byte} {rest : List MicroOp}
    (h : SessionInv s) (hpend : pendingOps s = .diagu b :: rest) :
    s.phase = .exec (.invalid b) ∧ s.todo = [.diagu b] ∧ isInvalidByte b = true := by
  by_cases hexec : ∃ cmd, s.phase = .exec cmd
  · obtain ⟨cmd, hp⟩ := hexec
    rw [pendingOps_eq_todo (.inl (by simp [hp]))] at hpend
    obtain ⟨-, hleft⟩ := h.exec_left hp
    rw [hpend] at hleft
    obtain ⟨rfl, rfl, hb⟩ := hleft.eq_invalid_of_diagu
    exact ⟨hp, hpend, hb⟩
  · obtain ⟨on, hsuffix⟩ := h.pendingOps_outside_exec (not_exists.mp hexec)
    have hmem : MicroOp.diagu b ∈ tapEnableOps on := hsuffix.subset (by simp [hpend])
    simp [tapEnableOps] at hmem

/-- MAP_FAIL comes after a failed acquire, before any other event (rules R166, R173). -/
theorem SessionInv.before_mapFail {s : State} {rest : List LifeOp} (h : SessionInv s)
    (hp : s.phase = .map) (hl : s.life = .reportMapFail :: rest) :
    s.mapLog = [.acquireFailed] ∧ s.pos = 0 ∧ s.regLog = [] ∧ s.diag = [] := by
  have hphase := h.2
  simp only [PhaseHolds, hp] at hphase
  obtain ⟨-, -, hpos, hreg, -, hdiag, ⟨hlife, -⟩ | ⟨-, hlog⟩⟩ := hphase
  · simp [hl] at hlife
  · exact ⟨hlog, hpos, hreg, hdiag⟩

/-- UNMAP_WITHOUT_MAP comes after the release, with MAP_FAIL the only report so far (rules R167,
R173). -/
theorem SessionInv.before_unmapReport {s : State} {rest : List LifeOp} (h : SessionInv s)
    (hp : s.phase = .release .failure) (hl : s.life = .reportUnmap :: rest) :
    s.mapLog = [.acquireFailed, .released] ∧ s.diag = [.mapFail] := by
  have hphase := h.2
  simp only [PhaseHolds, hp] at hphase
  obtain ⟨-, ⟨hlife, -⟩ | ⟨hlog, -, ⟨hlife, -⟩ | ⟨-, -, hclosed⟩⟩⟩ := hphase
  · simp [hl] at hlife
  · simp [hl] at hlife
  · obtain ⟨-, -, -, hdiag | ⟨hfalse, -⟩⟩ := hclosed
    · exact ⟨hlog, hdiag⟩
    · cases hfalse

/-- The report of an invalid byte accesses, fetches and sends nothing (rule R175). -/
theorem noAccess_report_invalid (b : Byte) (s : State) :
    NoAccess s ((((worldMove s).pushDiag (.unknownCmd b)).setTodo []).setPhase .fetch) := by
  constructor <;> simp +contextual [SameDriver]

/-- Settles O35: a step that reports runs the report of an invalid byte, or one of the two reporting
lifecycle operations; the invariant says when each is next. -/
theorem diagnosticsGrowOnlyByTheThreeReports :
    Obligations.DiagnosticsGrowOnlyByTheThreeReports := by
  intro s t hinv h hne
  have frame (hna : NoAccess s t) : t.regLog = s.regLog ∧ SameDriver s t ∧ t.out = s.out ∧
      t.pos = s.pos ∧ ∀ i ∈ softBits, bitAt t.reg i = bitAt s.reg i :=
    ⟨hna.regLog, hna.driver, hna.out, hna.pos, hna.softBits⟩
  rcases step_diag h with hsame | ⟨ht, b, rest, hpend⟩ | ⟨op, rest, hphase, hl, rfl⟩
  · exact absurd hsame hne
  · obtain ⟨hp, htodo, hb⟩ := hinv.invalid_of_diagu hpend
    rw [step_report_invalid ht hp htodo, Host.Outcome.next.injEq] at h
    subst h
    exact ⟨.inl ⟨b, hp, htodo, hb, by simp, rfl⟩, frame (noAccess_report_invalid b s)⟩
  · refine ⟨.inr ?_, frame (noAccess_runLifeOp op rest s)⟩
    rcases hinv.life_cases hl hphase with ⟨hp, rfl, rfl⟩ | ⟨st, _, rfl, _⟩ | ⟨hp, rfl, rfl⟩
    · obtain ⟨hlog, hpos, hreg, hdiag⟩ := hinv.before_mapFail hp hl
      exact .inl ⟨hp, hl, hlog, hpos, hreg, by simp [runLifeOp, raiseEvent, hdiag], rfl⟩
    · exact absurd (worldMove_diag s) hne
    · obtain ⟨hlog, hdiag⟩ := hinv.before_unmapReport hp hl
      exact .inr ⟨hp, hlog, hdiag, by simp [runLifeOp, raiseEvent, hdiag], worldMove_phase s⟩

end Sys2Proof.Machine
end

section
/-! PROOFS of the statements from spec/70_reset_and_hazards.md: the update lost across a
read-modify-write (rule R200). -/

namespace Sys2Proof.Machine

/-! ### The two halves of a read-modify-write, in WRITE, START and STOP alike -/

/-- Where read-modify-writes are made, the step works on the pending list, after the turn (rules
R103, R138, R164). -/
theorem step_runsWrites {s : State} (ht : TakesStep s) (hw : RunsWrites s) :
    ∃ after, step s = runTodo after ((worldMove s).setTodo (pendingOps s)) := by
  have loaded (h : s.phase ≠ .stop ∨ s.todo ≠ []) :
      (worldMove s).setTodo (pendingOps s) = worldMove s := by
    rw [pendingOps_eq_todo h]
    rfl
  rcases hw with hp | hp | ⟨c, m, d, hp⟩
  · exact ⟨.fetch, by rw [loaded (.inl (by simp [hp])), step_start ht hp]⟩
  · refine ⟨.release .success, ?_⟩
    rw [step_eq_blockStep ht]
    simp only [blockStep, worldMove_phase, hp, stopStep, worldMove_todo]
    cases htodo : s.todo with
    | nil => rw [pendingOps_stop hp htodo]
    | cons op rest => rw [loaded (.inr (by simp [htodo]))]
  · exact ⟨.fetch, by rw [loaded (.inl (by simp [hp])), step_write_running ht hp]⟩

/-- The first half holds the word that the turn left in the register (rule R54). -/
theorem step_rd {s : State} {line : Line} {l : Level} {op : MicroOp} {rest : List MicroOp}
    (ht : TakesStep s) (hw : RunsWrites s) (hm : s.mapped = true)
    (hpend : pendingOps s = .rd line l :: op :: rest) :
    step s = .next ((((worldMove s).pushReg (.rd (worldMove s).reg)).setHeld
      (some (worldMove s).reg)).setTodo (op :: rest)) := by
  obtain ⟨after, hstep⟩ := step_runsWrites ht hw
  rw [← worldMove_mapped, ← State.setTodo_mapped (ops := .rd line l :: op :: rest)] at hm
  rw [hstep, hpend, runTodo_rd (State.setTodo_todo ..) hm]
  rfl

/-- The second half writes the held word back over the register as the turn left it (rules R54,
R55). -/
theorem step_wr {s : State} {line : Line} {l : Level} {v : Word} {rest : List MicroOp}
    (ht : TakesStep s) (hw : RunsWrites s) (hm : s.mapped = true) (hh : s.held = some v)
    (hpend : pendingOps s = .wr line l :: rest) :
    ∃ t, step s = .next t ∧ t.todo = rest ∧
      t.reg = writeEffect (worldMove s).reg (insertBit (bitOf line) l v) := by
  obtain ⟨after, hstep⟩ := step_runsWrites ht hw
  rw [hpend] at hstep
  rw [← worldMove_mapped, ← State.setTodo_mapped (ops := .wr line l :: rest)] at hm
  rw [← worldMove_held, ← State.setTodo_held (ops := .wr line l :: rest)] at hh
  obtain ⟨u, hop⟩ := runOp_wr_answers (line := line) (l := l) rest hh hm
  obtain ⟨v', hv', hreg, -⟩ := runOp_wr hop
  obtain rfl : v = v' := Option.some.inj (hh.symm.trans hv')
  have htodo : u.todo = rest := (runOp_todo hop).resolve_right nofun
  refine ⟨settle after u, hstep.trans (runTodo_cons rfl hop), ?_⟩
  rw [settle_eq]
  exact ⟨htodo, hreg⟩

/-! ### The lost update -/

/-- A write of a word read one turn earlier: an input bit is the environment's present one, every
other bit of the environment's is the earlier one (rules R25, R55, R57). -/
theorem bitAt_writeBack {i : BitIdx} (hi : i ∉ softBits) (line : Line) (l : Level)
    (r₁ w₁ r₂ w₂ : Word) :
    bitAt (writeEffect (envMove r₂ w₂) (insertBit (bitOf line) l (envMove r₁ w₁))) i =
      if i ∈ inputBits then bitAt w₂ i else bitAt w₁ i := by
  have hline : i ≠ bitOf line := fun h => hi (h ▸ bitOf_mem_softBits line)
  simp [hi, hline]

/-- Settles O30: the read holds what the first turn presented, and the write puts it back over what
the second turn presented, but for the input bits. -/
theorem updateInsideReadModifyWriteIsLost : Obligations.UpdateInsideReadModifyWriteIsLost := by
  intro s line l rest t₁ t₂ ts he hm hw hpend hturns hk₁ hk₂
  have hcalm : CalmFor 2 s := by simp [CalmFor, hturns, hk₁, hk₂]
  have hread := step_rd (hcalm.takesStep he) hw hm hpend
  generalize hu : (((worldMove s).pushReg (.rd (worldMove s).reg)).setHeld
    (some (worldMove s).reg)).setTodo (.wr line l :: rest) = u at hread
  have hphase : u.phase = s.phase := by simp [← hu]
  have htodo : u.todo = .wr line l :: rest := by simp [← hu]
  have hheld : u.held = some (envMove s.reg t₁.env) := by simp [← hu, nextTurn, hturns]
  have hcalmu : CalmFor 1 u := hcalm.tail (by simp [← hu])
  obtain ⟨hkilled, hopen⟩ := ended_none_iff.mp he
  have hendu : ended u = none := ended_none_iff.mpr ⟨by simp [← hu, hkilled], hphase ▸ hopen⟩
  have hwu : RunsWrites u := by rwa [RunsWrites, hphase]
  have hpendu : pendingOps u = .wr line l :: rest :=
    (pendingOps_eq_todo (.inr (by simp [htodo]))).trans htodo
  obtain ⟨t, hwrite, hrest, hreg⟩ :=
    step_wr (hcalmu.takesStep hendu) hwu (by simp [← hu, hm]) hheld hpendu
  have hnext : nextTurn u = t₂ := by simp [← hu, nextTurn, hturns]
  rw [worldMove_reg, hnext] at hreg
  exact ⟨t, (run_succ 1 hread).trans (run_succ 0 hwrite), hrest, fun i hi =>
    hreg ▸ bitAt_writeBack hi line l s.reg t₁.env u.reg t₂.env⟩

end Sys2Proof.Machine
end
